-- ==== Sys2Proof/Word.lean ====
section
/-! DEFINITION. The value types of the block: the 64-bit word, the 128-bit jump polynomial and the pair of words. -/

namespace Sys2Proof

/-- A 64-bit unsigned word (R7 WORD, R9). -/
abbrev Word := BitVec 64

/-- A 128-bit polynomial over GF(2), `{p1, p0}`: bit i is the coefficient of x^i (R7 POLY_BITS, R8). -/
abbrev GfPoly := BitVec 128

/-- A pair of words `(s0, s1)`, s0 first (R13, R31): the generator state, the engine's working copy and its
accumulator are all of this shape. -/
structure StatePair where
  s0 : Word
  s1 : Word
  deriving DecidableEq, Repr

/-- The all-zero state (R12). -/
abbrev StatePair.zero : StatePair := ⟨0, 0⟩

end Sys2Proof
end

