-- ==== Sys2Proof/Config.lean ====
section
/-! DEFINITION. What the build of the block fixes (R7). The spec leaves no value open after a command (R97: tick has
"no non-deterministic choice"), so there is no free value here. -/

namespace Sys2Proof.Config

/-- RESET_SEED's default (R7, 92_eei_decisions.md D5). The parameter itself is the field `resetSeed` of State, which no
step changes: see notes/assumptions/1.md. -/
def defaultResetSeed : Word := 0

/-- JUMP_CYCLES: one polynomial bit per engine cycle (R7, D16). -/
abbrev jumpCycles : Nat := 128

end Sys2Proof.Config
end

