-- ==== Sys2Proof/Syntax.lean ====
section
/-! DEFINITION. The commands of the block, the fields of the command word, the input ports, and the assembler's source
forms (30_encoding.md). -/

namespace Sys2Proof

/-- A command with the operands it uses (R44). An operand the command ignores is no part of it (notes/assumptions/10.md). -/
inductive Instr where
  /-- op 000, the reserved opcode: IllegalCommand (R82). -/
  | illegal
  /-- op 001: seed the generator (R53). -/
  | init (seed : Word)
  /-- op 010: one output and one step (R61). -/
  | next
  /-- op 011: jump by the polynomial `{p1, p0}` (R70). -/
  | jump (p0 p1 : Word)
  /-- op 100: jump by 2^32 steps (R77). -/
  | jump32
  /-- op 101: jump by 2^64 steps (R78). -/
  | jump64
  /-- op 110: jump by 2^96 steps (R79). -/
  | jump96
  /-- op 111: load the state from the operands (R54). -/
  | load (s0 s1 : Word)
  deriving DecidableEq, Repr

/-- The eight values of the op field, by name (R45). -/
inductive Opcode where
  | illegal | init | next | jump | jump32 | jump64 | jump96 | load
  deriving DecidableEq, Repr

/-- The three fields of the command word, sampled together at the accept edge (R43). -/
structure CommandFields where
  op    : BitVec 3
  data0 : Word
  data1 : Word
  deriving DecidableEq, Repr

/-- The input ports that a host drives, clk apart (R40). -/
inductive InputPort where
  | rst | cmdValid | cmdOp | cmdData0 | cmdData1
  deriving DecidableEq, Repr

/-- What the input ports carry at one rising edge (R40, R41). `none` is a port at least one wire of which is neither 0
nor 1 at that edge (R99, 93_implementation_defined.md I4). -/
structure PortSample where
  rst      : Option Bool
  cmdValid : Option Bool
  cmdOp    : Option (BitVec 3)
  cmdData0 : Option Word
  cmdData1 : Option Word
  deriving DecidableEq, Repr

/-- A command as a listing writes it, `op`, `data0` and `data1` as plain numbers, before any range is checked (R48). -/
structure RawCommand where
  op    : Nat
  data0 : Nat
  data1 : Nat
  deriving DecidableEq, Repr

/-- The assembler's pseudo-instructions (R49). -/
inductive Pseudo where
  | step
  | jump0
  | jumpN (n : Nat)
  | seed (s : Word)
  deriving DecidableEq, Repr

/-- One assembled line: a command or a pseudo-instruction (R48, R49). -/
inductive AsmLine where
  | command (i : Instr)
  | pseudo (p : Pseudo)
  deriving DecidableEq, Repr

end Sys2Proof
end

