-- ==== Sys2Proof/WellFormed.lean ====
section
/-! DEFINITION. Which terms the block or its assembler admits: the ranges of a listed command (R48) and the levels a
host owes the ports (R99). -/

namespace Sys2Proof

/-- A listed op is one of the eight values of the 3-bit field (R45). -/
def RawCommand.opInRange (c : RawCommand) : Bool := c.op < 2 ^ 3

/-- "A literal outside 0 to 2^64-1 is an assembly error" (R48), for data0. -/
def RawCommand.data0InRange (c : RawCommand) : Bool := c.data0 < 2 ^ 64

/-- "A literal outside 0 to 2^64-1 is an assembly error" (R48), for data1. -/
def RawCommand.data1InRange (c : RawCommand) : Bool := c.data1 < 2 ^ 64

/-- A listed command is well formed when its three fields fit the command word (R43, R48). -/
def RawCommand.wellFormed (c : RawCommand) : Bool := c.opInRange && c.data0InRange && c.data1InRange

/-- Every command is well formed: "every combination of data0 and data1 is legal for every op" (R46), and an operand
is a full 64-bit value by its type. One arm per constructor, so that a new command cannot slip past. -/
def Instr.wellFormed : Instr → Bool
  | .illegal => true
  | .init _ => true
  | .next => true
  | .jump _ _ => true
  | .jump32 => true
  | .jump64 => true
  | .jump96 => true
  | .load _ _ => true

/-- The host must "drive rst and cmd_valid with valid levels at every edge" (R99). -/
def PortSample.controlDriven (x : PortSample) : Bool := x.rst.isSome && x.cmdValid.isSome

end Sys2Proof
end

