-- ==== Sys2Proof/Decode.lean ====
section
/-! DEFINITION. The command word, the opcode map, the decoder (total; what it cannot read it rejects by naming the port
or field) and, after it, the encoder (30_encoding.md R43 to R48). -/

namespace Sys2Proof

/-! ## The opcode map (R45) -/

/-- The command an op value selects (R45). -/
def Opcode.ofBits (op : BitVec 3) : Opcode :=
  match op.toFin with
  | 0 => .illegal
  | 1 => .init
  | 2 => .next
  | 3 => .jump
  | 4 => .jump32
  | 5 => .jump64
  | 6 => .jump96
  | 7 => .load

/-- The op value of a command (R45). -/
def Opcode.toBits : Opcode → BitVec 3
  | .illegal => 0b000#3
  | .init => 0b001#3
  | .next => 0b010#3
  | .jump => 0b011#3
  | .jump32 => 0b100#3
  | .jump64 => 0b101#3
  | .jump96 => 0b110#3
  | .load => 0b111#3

/-- Whether the command uses data0 (R44). -/
def Opcode.usesData0 : Opcode → Bool
  | .init | .jump | .load => true
  | .illegal | .next | .jump32 | .jump64 | .jump96 => false

/-- Whether the command uses data1 (R44). -/
def Opcode.usesData1 : Opcode → Bool
  | .jump | .load => true
  | .illegal | .init | .next | .jump32 | .jump64 | .jump96 => false

/-- The command with its operands taken from data0 and data1 (R44): "taken unchanged, with no extension, scaling or
shifting"; an ignored operand is dropped. -/
def Opcode.instr (op : Opcode) (data0 data1 : Word) : Instr :=
  match op with
  | .illegal => .illegal
  | .init => .init data0
  | .next => .next
  | .jump => .jump data0 data1
  | .jump32 => .jump32
  | .jump64 => .jump64
  | .jump96 => .jump96
  | .load => .load data0 data1

/-- A row of the opcode table over the packed word: the command, the mask and the match value. -/
structure OpcodeRow where
  op    : Opcode
  mask  : BitVec 131
  value : BitVec 131
  deriving DecidableEq, Repr

/-- "the match is op, over mask 0b111 of the packed word" (R45), row by row as spec/opcode_table.json lists them. -/
def opcodeTable : List OpcodeRow :=
  [⟨.illegal, 0x7#131, 0x0#131⟩, ⟨.init, 0x7#131, 0x1#131⟩, ⟨.next, 0x7#131, 0x2#131⟩, ⟨.jump, 0x7#131, 0x3#131⟩,
   ⟨.jump32, 0x7#131, 0x4#131⟩, ⟨.jump64, 0x7#131, 0x5#131⟩, ⟨.jump96, 0x7#131, 0x6#131⟩, ⟨.load, 0x7#131, 0x7#131⟩]

/-- Whether a packed word matches a row. -/
def OpcodeRow.matches (r : OpcodeRow) (w : BitVec 131) : Bool := w &&& r.mask == r.value

/-! ## The command word (R43) -/

/-- The packed word `{data1, data0, op}` (R43). -/
def CommandFields.pack (f : CommandFields) : BitVec 131 := f.data1 ++ f.data0 ++ f.op

/-- The fields of a packed word: op in bits 2:0, data0 in bits 66:3, data1 in bits 130:67 (R43). -/
def CommandFields.unpack (w : BitVec 131) : CommandFields where
  op := w.extractLsb' 0 3
  data0 := w.extractLsb' 3 64
  data1 := w.extractLsb' 67 64

/-! ## Decoding -/

/-- The command in three sampled fields (R45): "A decoder needs the op field alone". -/
def decodeFields (f : CommandFields) : Instr := (Opcode.ofBits f.op).instr f.data0 f.data1

/-- The command in a packed word. Decoding is total (R46). -/
def decodeWord (w : BitVec 131) : Instr := decodeFields (.unpack w)

/-- The command on the ports at an accept edge (R42, R44). A used field at an unknown level is rejected by the name of
its port (R99); an unknown level on an ignored operand is not looked at (R44, D10). -/
def decodePorts (x : PortSample) : Except InputPort Instr :=
  match x.cmdOp with
  | none => .error .cmdOp
  | some op =>
    if (Opcode.ofBits op).usesData0 && x.cmdData0.isNone then .error .cmdData0
    else if (Opcode.ofBits op).usesData1 && x.cmdData1.isNone then .error .cmdData1
    else .ok (decodeFields ⟨op, x.cmdData0.getD 0, x.cmdData1.getD 0⟩)

/-- A listed command (R48), rejected by the name of the first field that is out of range. -/
def decodeRaw (c : RawCommand) : Except InputPort Instr :=
  if !c.opInRange then .error .cmdOp
  else if !c.data0InRange then .error .cmdData0
  else if !c.data1InRange then .error .cmdData1
  else .ok (decodeFields ⟨BitVec.ofNat 3 c.op, BitVec.ofNat 64 c.data0, BitVec.ofNat 64 c.data1⟩)

/-- The packed word that `nbits` bits of `w` hold, every bit above `nbits` being 0; `none` where a bit beyond the 131 of
the command word is set (notes/assumptions/8.md). -/
def tableWord (nbits w : Nat) : Option (BitVec 131) :=
  if w % 2 ^ nbits < 2 ^ 131 then some (BitVec.ofNat 131 (w % 2 ^ nbits)) else none

/-- The command the decoder reads from a word numbered as spec/opcode_table.json numbers it. -/
def decodeTableWord (nbits w : Nat) : Option Instr := (tableWord nbits w).map decodeWord

/-! ## Encoding -/

/-- The opcode of a command (R45). -/
def Instr.opcode : Instr → Opcode
  | .illegal => .illegal
  | .init _ => .init
  | .next => .next
  | .jump _ _ => .jump
  | .jump32 => .jump32
  | .jump64 => .jump64
  | .jump96 => .jump96
  | .load _ _ => .load

/-- The data0 field of a command: "An operand the mnemonic does not name is assembled as 0" (R48). -/
def Instr.data0 : Instr → Word
  | .init seed => seed
  | .jump p0 _ => p0
  | .load s0 _ => s0
  | .illegal | .next | .jump32 | .jump64 | .jump96 => 0

/-- The data1 field of a command (R48). -/
def Instr.data1 : Instr → Word
  | .jump _ p1 => p1
  | .load _ s1 => s1
  | .illegal | .init _ | .next | .jump32 | .jump64 | .jump96 => 0

/-- The three fields of an assembled command (R48). -/
def encodeFields (i : Instr) : CommandFields := ⟨i.opcode.toBits, i.data0, i.data1⟩

/-- The packed word of an assembled command (R43, R48). -/
def encode (i : Instr) : BitVec 131 := (encodeFields i).pack

/-- The ports while the host presents the three fields with rst = 0 (R42). -/
def CommandFields.present (f : CommandFields) : PortSample where
  rst := some false
  cmdValid := some true
  cmdOp := some f.op
  cmdData0 := some f.data0
  cmdData1 := some f.data1

/-- The ports while the host presents an assembled command. -/
def presentInstr (i : Instr) : PortSample := (encodeFields i).present

/-- The ports of an idle host: rst = 0 and cmd_valid = 0 (R84 case 4); the command fields are not looked at. -/
def PortSample.idle : PortSample where
  rst := some false
  cmdValid := some false
  cmdOp := none
  cmdData0 := none
  cmdData1 := none

/-- A host obeys R99 at an edge: rst and cmd_valid at valid levels, and, where it presents a command with rst = 0, the
opcode and every operand the command uses. -/
def PortSample.wellDriven (x : PortSample) : Bool :=
  x.controlDriven && (x.rst == some true || x.cmdValid == some false || (decodePorts x).isOk)

end Sys2Proof
end

