-- ==== Sys2Proof/Machine/Functions.lean ====
section
/-! DEFINITION. The pure functions of the block: the primitives of R9, Init (R50), Step (R56), Jump (R63), the fixed
constants (R7, R75) and, for the assembler's JUMPN alone, polynomials modulo C(x) (R49, R65). -/

namespace Sys2Proof.Machine

/-! ## Primitives (R9) -/

/-- `rotl(a, k) = (a << (k mod 64)) | (a >> ((64 - (k mod 64)) mod 64))` (R9). -/
def rotl (a : Word) (k : Nat) : Word := (a <<< (k % 64)) ||| (a >>> ((64 - k % 64) % 64))

/-- The XOR of two pairs, word by word (R59, R63). -/
def xorPair (a b : StatePair) : StatePair := ⟨a.s0 ^^^ b.s0, a.s1 ^^^ b.s1⟩

/-! ## Seed Initializer -/

/-- LCG_MUL (R7, R50). -/
def lcgMul : Word := 6364136223846793005#64

/-- LCG_ADD (R7, R50). -/
def lcgAdd : Word := 1442695040888963407#64

/-- One mixing step, `x * LCG_MUL + LCG_ADD` mod 2^64 (R50). The constants stand first: a literal second operand makes
Lean's kernel count it down in unary where it compares two such terms. -/
def lcg (x : Word) : Word := lcgAdd + lcgMul * x

/-- `Init(seed)`: two mixing steps, the seed threaded through (R50). -/
def initState (seed : Word) : StatePair := ⟨lcg seed, lcg (lcg seed)⟩

/-! ## Step Function -/

/-- `Step(s).result` (R56). -/
def stepResult (s : StatePair) : Word := rotl ((s.s0 + s.s1) * 9) 29 + s.s0

/-- `Step(s).state`, the map T (R56, R59): both words from the pair before the step (R57). -/
def stepState (s : StatePair) : StatePair := ⟨s.s0 ^^^ rotl s.s1 29, s.s0 ^^^ (s.s1 <<< 9)⟩

/-! ## Jump Engine -/

/-- `P[i]`: bit i of the 128-bit polynomial (R8). -/
abbrev polyBit (p : GfPoly) (i : Nat) : Bool := p.getLsbD i

/-- The accumulator after one polynomial bit: fold the working copy in if the bit is set (R63). -/
def foldBit (b : Bool) (acc work : StatePair) : StatePair := if b then xorPair acc work else acc

/-- The accumulator and the working copy of the jump loop. -/
structure LoopState where
  acc  : StatePair
  work : StatePair
  deriving DecidableEq, Repr

/-- One iteration of the jump loop, for bit i: fold, then step (R63: "The fold happens before the step at each bit"). -/
def jumpIteration (p : GfPoly) (i : Nat) (e : LoopState) : LoopState :=
  ⟨foldBit (polyBit p i) e.acc e.work, stepState e.work⟩

/-- The jump loop after its first n iterations, bits 0 to n-1 (R63). -/
def jumpLoop (p : GfPoly) (s : StatePair) : Nat → LoopState
  | 0 => ⟨.zero, s⟩
  | n + 1 => jumpIteration p n (jumpLoop p s n)

/-- `Jump(s, P)` (R63). Irreducible, so that no elaborator step unrolls the 128 iterations by accident; its equation is
`jumpState_eq` in Laws/Ops.lean. -/
@[irreducible] def jumpState (s : StatePair) (p : GfPoly) : StatePair := (jumpLoop p s Config.jumpCycles).acc

/-! ## Named jump distances (R75) -/

/-- J32 = {p1, p0} (R75). -/
def j32 : GfPoly := 0x688E6BFC19485AB140165CBAE9CA6DEB#128

/-- J64 = {p1, p0} (R75). -/
def j64 : GfPoly := 0x2FE2DE5C2E12F601F4DF34E424CA5C56#128

/-- J96 = {p1, p0} (R75). -/
def j96 : GfPoly := 0x95A98C7025F908B2185F4DF8B7634607#128

/-! ## Polynomials modulo C(x), for JUMPN (R49, R65)
"A model does not need C" to run a command (R65): nothing here is read by the machine. -/

/-- C(x) without its term x^128 (R65). -/
def charPolyLow : GfPoly := 0x0005052435243717_12032010A0F06501#128

/-- x * a mod C(x). -/
def polyMulX (a : GfPoly) : GfPoly := if a.msb then (a <<< 1) ^^^ charPolyLow else a <<< 1

/-- The sum over i < n of b[i] * (x^i * a), mod C(x), with x^n * a: the product's loop. -/
def polyMulLoop (a b : GfPoly) : Nat → GfPoly × GfPoly
  | 0 => (0, a)
  | n + 1 =>
    let r := polyMulLoop a b n
    (if polyBit b n then r.1 ^^^ r.2 else r.1, polyMulX r.2)

/-- a * b mod C(x) (R68). Irreducible for the same reason: `polyMul_eq`. -/
@[irreducible] def polyMul (a b : GfPoly) : GfPoly := (polyMulLoop a b 128).1

/-- x^n mod C(x), one factor x at a time: the clear definition. -/
def polyXPow : Nat → GfPoly
  | 0 => 1
  | n + 1 => polyMulX (polyXPow n)

/-- x^n mod C(x) by squaring, with fuel for n's binary digits. -/
def polyXPowFuel : Nat → Nat → GfPoly
  | 0, _ => 1
  | fuel + 1, n =>
    let h := polyXPowFuel fuel (n / 2)
    if n % 2 = 1 then polyMulX (polyMul h h) else polyMul h h

/-- x^n mod C(x) by squaring: what the assembler computes for JUMPN (R49). -/
def polyXPowFast (n : Nat) : GfPoly := polyXPowFuel (n.log2 + 1) n

end Sys2Proof.Machine
end

