-- ==== Sys2Proof/Machine/State.lean ====
section
/-! DEFINITION. The state of one instance of the block (10_state.md), the reasons a step can stop, and the state after
reset (R27). -/

namespace Sys2Proof.Machine

/-- Every register of the block (R13 to R23), the build parameter RESET_SEED (R7), and the input-port samples the host
has still to drive, one per rising edge (R40, R41; notes/assumptions/2.md). Plain data. -/
structure State where
  /-- s0 (R13). -/
  s0 : Word
  /-- s1 (R13). -/
  s1 : Word
  /-- rnd_out (R16). -/
  rndOut : Word
  /-- rnd_valid (R17). -/
  rndValid : Bool
  /-- busy (R18). -/
  busy : Bool
  /-- jump_done (R19). -/
  jumpDone : Bool
  /-- err_illegal, sticky (R20). -/
  errIllegal : Bool
  /-- P, the latched jump polynomial (R23). -/
  p : GfPoly
  /-- k, the index of the next polynomial bit (R23). -/
  k : BitVec 7
  /-- w0, working copy (R23). -/
  w0 : Word
  /-- w1, working copy (R23). -/
  w1 : Word
  /-- t0, accumulator (R23). -/
  t0 : Word
  /-- t1, accumulator (R23). -/
  t1 : Word
  /-- RESET_SEED, set at build time (R7, D5): no step changes it (notes/assumptions/1.md). -/
  resetSeed : Word
  /-- The model's own field: the samples of the input ports at the edges to come, the next one first. -/
  pins : List PortSample
  deriving DecidableEq, Repr

/-- The block stops on nothing: its operations are "deterministic, total" and it "cannot fail at runtime" (R83). So no
reason exists; IllegalCommand is the state bit errIllegal (R82, notes/assumptions/9.md). -/
inductive Fault where
  deriving DecidableEq, Repr

/-- The reasons a step has no meaning. -/
inductive Refusal where
  /-- A command without a meaning in this model. Raised by no arm of exec: every command has its meaning. Safe. -/
  | notModelled (mnemonic : String)
  /-- The host drove an unknown level onto a port that the edge uses: "outside this spec. A model has no meaning for it
  and should refuse it" (R99). Raised by tick alone. Safe. -/
  | unknownLevel (port : InputPort)
  deriving DecidableEq, Repr

/-- ResetState (R27) for a build with the given RESET_SEED; what the host drives next is not touched by reset. -/
def State.resetFor (seed : Word) (pins : List PortSample) : State where
  s0 := (initState seed).s0
  s1 := (initState seed).s1
  rndOut := 0
  rndValid := false
  busy := false
  jumpDone := false
  errIllegal := false
  p := 0
  k := 0
  w0 := 0
  w1 := 0
  t0 := 0
  t1 := 0
  resetSeed := seed
  pins := pins

/-- The block right after reset, in the default build (R27, R7), with no sample of a host listed. -/
def State.reset : State := State.resetFor Config.defaultResetSeed []

end Sys2Proof.Machine
end

