-- ==== Sys2Proof/Machine/Operands.lean ====
section
/-! DEFINITION. The operand forms (R44): how a command's operand words become the value it uses. -/

namespace Sys2Proof.Machine

/-- JUMP's polynomial `P = {p1, p0}`, p0 the low-order 64 bits (R8, R44). -/
def polyOperand (p0 p1 : Word) : GfPoly := p1 ++ p0

/-- LOAD's new state: data0 is s0, data1 is s1 (R44). -/
def stateOperand (data0 data1 : Word) : StatePair := ⟨data0, data1⟩

end Sys2Proof.Machine
end

