-- ==== Sys2Proof/Machine/Flags.lean ====
section
/-! DEFINITION. The status outputs (R17 to R22), cmd_ready (R42) and the output ports (R26, R40). -/

namespace Sys2Proof.Machine

/-- `zero_state = (s0 == 0) && (s1 == 0)`, combinational (R21). -/
def State.zeroState (s : State) : Bool := s.s0 == 0 && s.s1 == 0

/-- `cmd_ready = (rst == 0) && (busy == 0)` (R42). -/
def State.cmdReady (rst : Bool) (s : State) : Bool := !rst && !s.busy

/-- rnd_valid and jump_done fall at an edge that does not set them (R17, R19, R97). -/
def State.clearPulses (s : State) : State := { s with rndValid := false, jumpDone := false }

/-- The output ports in one cycle (R40). -/
structure Outputs where
  cmdReady   : Bool
  rndOut     : Word
  rndValid   : Bool
  stateS0    : Word
  stateS1    : Word
  busy       : Bool
  jumpDone   : Bool
  errIllegal : Bool
  zeroState  : Bool
  deriving DecidableEq, Repr

/-- The outputs in a cycle: the register values, plus cmd_ready and zero_state (R40, R97). They depend on rst and on no
other input. -/
def State.outputs (rst : Bool) (s : State) : Outputs where
  cmdReady := s.cmdReady rst
  rndOut := s.rndOut
  rndValid := s.rndValid
  stateS0 := s.s0
  stateS1 := s.s1
  busy := s.busy
  jumpDone := s.jumpDone
  errIllegal := s.errIllegal
  zeroState := s.zeroState

end Sys2Proof.Machine
end

