-- ==== Sys2Proof/Machine/Ops.lean ====
section
/-! DEFINITION. The shared operations on the registers: reading and writing the pairs, the error (R82), starting a jump
(R70), one engine step (R71), reset (R93) and the idle edge (R84). Every one computes from the state before the edge
(R57, R100). -/

namespace Sys2Proof.Machine

/-- The generator state (s0, s1) (R13). -/
def State.gen (s : State) : StatePair := ⟨s.s0, s.s1⟩

/-- The engine's working copy (w0, w1) (R23). -/
def State.work (s : State) : StatePair := ⟨s.w0, s.w1⟩

/-- The engine's accumulator (t0, t1) (R23). -/
def State.acc (s : State) : StatePair := ⟨s.t0, s.t1⟩

/-- Write (s0, s1), both words at one edge (R33). -/
def State.setGen (s : State) (g : StatePair) : State := { s with s0 := g.s0, s1 := g.s1 }

/-- Write (w0, w1). -/
def State.setWork (s : State) (g : StatePair) : State := { s with w0 := g.s0, w1 := g.s1 }

/-- Write (t0, t1). -/
def State.setAcc (s : State) (g : StatePair) : State := { s with t0 := g.s0, t1 := g.s1 }

/-- `raise IllegalCommand`: set err_illegal to 1 (R10, R82). It is all the block does on an error: it "saves no state,
changes no mode, fetches from no vector and calls no handler", and "There is no return-from-trap" (R85). -/
def State.raiseIllegal (s : State) : State := { s with errIllegal := true }

/-- `start(S', P)`, with the pulses cleared: latch P, copy the state, clear the accumulator and k, set busy (R70, R97). -/
def State.startJump (s : State) (p : GfPoly) : State :=
  { (((s.clearPulses).setWork s.gen).setAcc .zero) with p := p, k := 0, busy := true }

/-- One engine step: polynomial bit k (R71). At k = 127 it is the commit edge. -/
def State.engineStep (s : State) : State :=
  let u := foldBit (polyBit s.p s.k.toNat) s.acc s.work
  let moved := ((s.clearPulses).setWork (stepState s.work)).setAcc u
  if s.k = 127#7 then { moved.setGen u with busy := false, jumpDone := true, k := 0 }
  else { moved with k := s.k + 1 }

/-- The edge at which rst = 1: every register takes its reset value (R93, R27). -/
def State.resetEdge (s : State) : State := .resetFor s.resetSeed s.pins

/-- The idle edge: "rnd_valid <- 0 and jump_done <- 0, and every other register keeps its value" (R84 case 4). -/
def State.idleEdge (s : State) : State := s.clearPulses

end Sys2Proof.Machine
end

