-- ==== Sys2Proof/Machine/Illegal.lean ====
section
/-! DEFINITION. The reserved opcode 000 (60_exceptions.md R82). -/

namespace Sys2Proof.Machine

/-- ILLEGAL: `err_illegal <- 1`, rnd_valid and jump_done 0, nothing else (R82). -/
def execIllegal (s : State) : Host.Outcome State Fault Refusal := .next s.clearPulses.raiseIllegal

end Sys2Proof.Machine
end

