-- ==== Sys2Proof/Machine/Initialize.lean ====
section
/-! DEFINITION. The commands that write the state without reading it: INIT and LOAD (40_initialize.md). -/

namespace Sys2Proof.Machine

/-- INIT: `(s0, s1) <- Init(data0)`, rnd_valid and jump_done 0 (R53). -/
def execInit (seed : Word) (s : State) : Host.Outcome State Fault Refusal :=
  .next (s.clearPulses.setGen (initState seed))

/-- LOAD: `(s0, s1) <- (data0, data1)`, rnd_valid and jump_done 0 (R54). LOAD (0, 0) is legal (R55). -/
def execLoad (data0 data1 : Word) (s : State) : Host.Outcome State Fault Refusal :=
  .next (s.clearPulses.setGen (stateOperand data0 data1))

end Sys2Proof.Machine
end

