-- ==== Sys2Proof/Machine/JumpEngine.lean ====
section
/-! DEFINITION. JUMP at its accept edge (42_jump_engine.md R70). The 128 engine edges that follow are
`State.engineStep` (R71). -/

namespace Sys2Proof.Machine

/-- JUMP: start the engine with `P = {data1, data0}` (R70). -/
def execJump (p0 p1 : Word) (s : State) : Host.Outcome State Fault Refusal :=
  .next (s.startJump (polyOperand p0 p1))

end Sys2Proof.Machine
end

