-- ==== Sys2Proof/Machine/NamedJumps.lean ====
section
/-! DEFINITION. JUMP32, JUMP64 and JUMP96 at their accept edge: JUMP with a constant of the block in place of the
operands (43_named_jumps.md). -/

namespace Sys2Proof.Machine

/-- JUMP32: start the engine with P = J32 (R77). -/
def execJump32 (s : State) : Host.Outcome State Fault Refusal := .next (s.startJump j32)

/-- JUMP64: start the engine with P = J64 (R78). -/
def execJump64 (s : State) : Host.Outcome State Fault Refusal := .next (s.startJump j64)

/-- JUMP96: start the engine with P = J96 (R79). -/
def execJump96 (s : State) : Host.Outcome State Fault Refusal := .next (s.startJump j96)

end Sys2Proof.Machine
end

