-- ==== Sys2Proof/Machine/StepFunction.lean ====
section
/-! DEFINITION. NEXT, the only command that produces output (41_step.md). -/

namespace Sys2Proof.Machine

/-- NEXT: `rnd_out <- Step.result`, `(s0, s1) <- Step.state`, rnd_valid 1, jump_done 0 (R61). -/
def execNext (s : State) : Host.Outcome State Fault Refusal :=
  .next { s.clearPulses.setGen (stepState s.gen) with rndOut := stepResult s.gen, rndValid := true }

end Sys2Proof.Machine
end

