-- ==== Sys2Proof/Machine/Dispatch.lean ====
section
/-! DEFINITION. The meaning of each command at the edge that accepts it. Whether a command is accepted at an edge is
tick's to say (Machine/Edge.lean): exec is applied at an accept edge only, where busy = 0 (R42, R70). -/

namespace Sys2Proof.Machine

def exec (i : Instr) (s : State) : Host.Outcome State Fault Refusal :=
  match i with
  | .illegal => Sys2Proof.Machine.execIllegal s
  | .init seed => Sys2Proof.Machine.execInit seed s
  | .next => Sys2Proof.Machine.execNext s
  | .jump p0 p1 => Sys2Proof.Machine.execJump p0 p1 s
  | .jump32 => Sys2Proof.Machine.execJump32 s
  | .jump64 => Sys2Proof.Machine.execJump64 s
  | .jump96 => Sys2Proof.Machine.execJump96 s
  | .load data0 data1 => Sys2Proof.Machine.execLoad data0 data1 s

end Sys2Proof.Machine
end

