-- ==== Sys2Proof/Machine/Edge.lean ====
section
/-! DEFINITION. One rising edge of clk: tick (R97) with the priority of R84, and the sample of the input ports that the
edge takes from the host. -/

namespace Sys2Proof.Machine

/-- The per-edge function (R97). The priority is that of R84: reset, then the engine, then a presented command, then
idle. rst and cmd_valid are looked at at every edge, the command fields at an accept edge only (R99). -/
def tick (x : PortSample) (s : State) : Host.Outcome State Fault Refusal :=
  match x.rst, x.cmdValid with
  | none, _ => .refused (.unknownLevel .rst)
  | some _, none => .refused (.unknownLevel .cmdValid)
  | some true, some _ => .next s.resetEdge
  | some false, some valid =>
    if s.busy then .next s.engineStep
    else if valid then
      match decodePorts x with
      | .ok i => exec i s
      | .error port => .refused (.unknownLevel port)
    else .next s.idleEdge

/-- What the ports carry at the next edge: the next listed sample; an exhausted list is an idle host
(notes/assumptions/3.md). -/
def State.sample (s : State) : PortSample := s.pins.headD .idle

/-- The state with that sample taken. -/
def State.dropSample (s : State) : State := { s with pins := s.pins.tail }

/-- A command word put where the next edge samples it: presented with rst = 0 in place of the next sample, to a block
that is not busy, so that the next edge accepts it (R42; notes/assumptions/7.md). -/
def State.presentWord (s : State) (w : BitVec 131) : State :=
  { s with busy := false, pins := (CommandFields.unpack w).present :: s.pins.tail }

end Sys2Proof.Machine
end

