-- ==== Sys2Proof/Machine/Step.lean ====
section
/-! DEFINITION. One step of the machine: one rising edge of clk (R41). -/

namespace Sys2Proof.Machine

/-- One rising edge: sample the ports, then the per-edge function (R41, R97). -/
def step (s : State) : Host.Outcome State Fault Refusal := tick s.sample s.dropSample

/-- `s` with the command word that `nbits` bits of `w` hold presented at the next edge (bits beyond the 131 of a command
word have no wire). -/
def State.withFetchWord (s : State) (nbits w : Nat) : State := s.presentWord (BitVec.ofNat 131 (w % 2 ^ nbits))

end Sys2Proof.Machine
end

