-- ==== Sys2Proof/Machine/Assembler.lean ====
section
/-! DEFINITION. The assembler's text and the pseudo-instructions (R48, R49), as functions on lists of characters. The
machine reads none of it. What R48 does not say of spaces and of wrong lines is in notes/assumptions/11.md. -/

namespace Sys2Proof.Machine

/-- Why a line is an assembly error. -/
inductive AsmError where
  /-- The mnemonic is none of R48's and R49's. -/
  | unknownMnemonic
  /-- An operand is no decimal literal and no hex literal with a `0x` prefix. -/
  | badLiteral
  /-- "A literal outside 0 to 2^64-1 is an assembly error" (R48). -/
  | literalOutOfRange
  /-- The line has fewer or more operands than the mnemonic names. -/
  | operandCount
  deriving DecidableEq, Repr

/-! ## Pseudo-instructions (R49) -/

/-- The command a pseudo-instruction expands to (R49). -/
def expandPseudo : Pseudo → Instr
  | .step => .jump 0x2 0x0
  | .jump0 => .jump 0x1 0x0
  | .jumpN n => .jump ((polyXPowFast n).extractLsb' 0 64) ((polyXPowFast n).extractLsb' 64 64)
  | .seed s => .init s

/-- The command of an assembled line. -/
def lineInstr : AsmLine → Instr
  | .command i => i
  | .pseudo p => expandPseudo p

/-! ## Literals -/

/-- The value of a digit of a base up to 16. -/
def digitValue (base : Nat) (c : Char) : Option Nat :=
  let v :=
    if '0' ≤ c && c ≤ '9' then c.toNat - '0'.toNat
    else if 'a' ≤ c && c ≤ 'f' then c.toNat - 'a'.toNat + 10
    else if 'A' ≤ c && c ≤ 'F' then c.toNat - 'A'.toNat + 10
    else 16
  if v < base then some v else none

/-- The number the digits write after a number already read. -/
def readDigits (base : Nat) : Nat → List Char → Option Nat
  | acc, [] => some acc
  | acc, c :: cs =>
    match digitValue base c with
    | none => none
    | some d => readDigits base (acc * base + d) cs

/-- An unsigned literal, "in decimal or in hex with a `0x` prefix" (R48). -/
def readLiteral : List Char → Option Nat
  | [] => none
  | '0' :: 'x' :: ds => if ds.isEmpty then none else readDigits 16 0 ds
  | c :: cs => readDigits 10 0 (c :: cs)

/-- A literal of any size: JUMPN's N, "an integer, 0 <= N" (R49). -/
def readNat (cs : List Char) : Except AsmError Nat :=
  match readLiteral cs with
  | none => .error .badLiteral
  | some n => .ok n

/-- An operand: "an unsigned 64-bit literal" (R48). -/
def readWord (cs : List Char) : Except AsmError Word :=
  match readLiteral cs with
  | none => .error .badLiteral
  | some n => if n < 2 ^ 64 then .ok (BitVec.ofNat 64 n) else .error .literalOutOfRange

/-! ## Lines -/

/-- Space and tabulator separate a mnemonic from its operands. -/
def isBlank (c : Char) : Bool := c == ' ' || c == '\t'

/-- The characters without blanks at either end. -/
def trimBlanks (cs : List Char) : List Char := ((cs.dropWhile isBlank).reverse.dropWhile isBlank).reverse

/-- The characters between separators. -/
def splitAtChar (sep : Char) : List Char → List (List Char)
  | [] => [[]]
  | c :: cs =>
    match splitAtChar sep cs with
    | [] => [[]]
    | piece :: pieces => if c == sep then [] :: piece :: pieces else (c :: piece) :: pieces

/-- "A `;` starts a comment that runs to the end of the line" (R48). -/
def stripComment (cs : List Char) : List Char := cs.takeWhile (· != ';')

/-- A mnemonic's own operands: none, one or two words, or JUMPN's number (R48, R49). -/
inductive Shape where
  | none (line : AsmLine)
  | oneWord (line : Word → AsmLine)
  | twoWords (line : Word → Word → AsmLine)
  | number (line : Nat → AsmLine)

/-- The mnemonics, upper case (R48, R49). -/
def shapeOf (name : List Char) : Option Shape :=
  if name = ['I', 'L', 'L', 'E', 'G', 'A', 'L'] then some (.none (.command .illegal))
  else if name = ['I', 'N', 'I', 'T'] then some (.oneWord fun a => .command (.init a))
  else if name = ['N', 'E', 'X', 'T'] then some (.none (.command .next))
  else if name = ['J', 'U', 'M', 'P'] then some (.twoWords fun a b => .command (.jump a b))
  else if name = ['J', 'U', 'M', 'P', '3', '2'] then some (.none (.command .jump32))
  else if name = ['J', 'U', 'M', 'P', '6', '4'] then some (.none (.command .jump64))
  else if name = ['J', 'U', 'M', 'P', '9', '6'] then some (.none (.command .jump96))
  else if name = ['L', 'O', 'A', 'D'] then some (.twoWords fun a b => .command (.load a b))
  else if name = ['S', 'T', 'E', 'P'] then some (.none (.pseudo .step))
  else if name = ['J', 'U', 'M', 'P', '0'] then some (.none (.pseudo .jump0))
  else if name = ['J', 'U', 'M', 'P', 'N'] then some (.number fun n => .pseudo (.jumpN n))
  else if name = ['S', 'E', 'E', 'D'] then some (.oneWord fun a => .pseudo (.seed a))
  else none

/-- The operands of a line: nothing at all, or pieces separated by commas (R48). -/
def operandTexts (cs : List Char) : List (List Char) :=
  if (trimBlanks cs).isEmpty then [] else (splitAtChar ',' cs).map trimBlanks

/-- A mnemonic with the texts of its operands. -/
def Shape.line (shape : Shape) (operands : List (List Char)) : Except AsmError AsmLine :=
  match shape, operands with
  | .none line, [] => .ok line
  | .oneWord line, [a] => (readWord a).map line
  | .twoWords line, [a, b] => (readWord a).bind fun x => (readWord b).map (line x)
  | .number line, [a] => (readNat a).map line
  | _, _ => .error .operandCount

/-- One line of source: "a mnemonic, then its operands separated by commas" (R48); `none` where the line is blank or
all comment. -/
def assembleLine (text : List Char) : Except AsmError (Option AsmLine) :=
  let body := trimBlanks (stripComment text)
  if body.isEmpty then .ok none
  else
    match shapeOf (body.takeWhile (!isBlank ·)) with
    | none => .error .unknownMnemonic
    | some shape => (shape.line (operandTexts (body.dropWhile (!isBlank ·)))).map some

/-- The commands of a source text, "One command per line" (R48). -/
def assemble (text : List Char) : Except AsmError (List Instr) :=
  (splitAtChar '\n' text).foldr
    (fun line rest =>
      match assembleLine line, rest with
      | .error e, _ => .error e
      | .ok _, .error e => .error e
      | .ok none, .ok is => .ok is
      | .ok (some a), .ok is => .ok (lineInstr a :: is))
    (.ok [])

/-! ## Listings -/

/-- A hex digit, upper case as the spec's listings write it. -/
def hexDigit (n : Nat) : Char :=
  if n < 10 then Char.ofNat ('0'.toNat + n) else Char.ofNat ('A'.toNat + (n - 10))

/-- The lowest `digits` hex digits of a number, most significant first. -/
def hexDigits : Nat → Nat → List Char
  | 0, _ => []
  | digits + 1, n => hexDigits digits (n / 16) ++ [hexDigit (n % 16)]

/-- A word as a 16-digit hex literal with its `0x` prefix. -/
def hexWord (w : Word) : List Char := '0' :: 'x' :: hexDigits 16 w.toNat

/-- A command as one line of source (R48). -/
def sourceLine : Instr → List Char
  | .illegal => ['I', 'L', 'L', 'E', 'G', 'A', 'L']
  | .init seed => ['I', 'N', 'I', 'T', ' '] ++ hexWord seed
  | .next => ['N', 'E', 'X', 'T']
  | .jump p0 p1 => ['J', 'U', 'M', 'P', ' '] ++ hexWord p0 ++ [',', ' '] ++ hexWord p1
  | .jump32 => ['J', 'U', 'M', 'P', '3', '2']
  | .jump64 => ['J', 'U', 'M', 'P', '6', '4']
  | .jump96 => ['J', 'U', 'M', 'P', '9', '6']
  | .load s0 s1 => ['L', 'O', 'A', 'D', ' '] ++ hexWord s0 ++ [',', ' '] ++ hexWord s1

/-- The three bits of op, most significant first. -/
def opDigits (op : BitVec 3) : List Char :=
  [op.getLsbD 2, op.getLsbD 1, op.getLsbD 0].map fun b => if b then '1' else '0'

/-- A command as a listing shows it: op in binary and both operands in hex, in braces (R48; the brace characters are
given by number). -/
def listingLine (i : Instr) : List Char :=
  let f := encodeFields i
  [Char.ofNat 123, 'o', 'p', '='] ++ opDigits f.op ++ [',', ' ', 'd', 'a', 't', 'a', '0', '='] ++ hexWord f.data0 ++
    [',', ' ', 'd', 'a', 't', 'a', '1', '='] ++ hexWord f.data1 ++ [Char.ofNat 125]

/-- The 131-bit packed word in hex, where a listing needs a single word (R48): 33 digits. -/
def listingWord (i : Instr) : List Char := '0' :: 'x' :: hexDigits 33 (encode i).toNat

end Sys2Proof.Machine
end

