-- ==== Sys2Proof/Machine/Instances.lean ====
section
/-! DEFINITION. Several instances of the block (R91): "the instances share nothing: no state, no port and no constant
that can change", and "An instance has no identifier", so a position in a list stands for one. Each has its own ports
(its `pins`), its own build parameter, and its own clock edges. -/

namespace Sys2Proof.Machine

/-- One rising edge of instance j's clock. An index beyond the list names no instance: nothing has an edge. -/
def stepInstance (j : Nat) (blocks : List State) : Host.Outcome (List State) Fault Refusal :=
  match blocks[j]? with
  | none => .next blocks
  | some s =>
    match step s with
    | .next s' => .next (blocks.set j s')
    | .fault r => .fault r
    | .refused r => .refused r

end Sys2Proof.Machine
end

