-- ==== Sys2Proof/Machine/Transaction.lean ====
section
/-! DEFINITION. The transaction level (R11): one atomic change of the architectural values per accepted command, the
time a command holds the port (R104), the commands that a run accepts, and which sample lists present a command
sequence up to its run's end (R98). The machine itself is
the cycle level, `step`; that it implements this level (R72) is a statement of Certificates/Slice0. -/

namespace Sys2Proof.Machine

/-- The values a run computes: the generator state, the last output and the sticky error bit (R26). -/
structure Arch where
  gen        : StatePair
  rndOut     : Word
  errIllegal : Bool
  deriving DecidableEq, Repr

/-- The architectural values in a state. -/
def State.arch (s : State) : Arch := ⟨s.gen, s.rndOut, s.errIllegal⟩

/-- The state an atomic command leaves in (s0, s1) (R14). -/
def genAfter (i : Instr) (g : StatePair) : StatePair :=
  match i with
  | .illegal => g
  | .init seed => initState seed
  | .next => stepState g
  | .jump p0 p1 => jumpState g (polyOperand p0 p1)
  | .jump32 => jumpState g j32
  | .jump64 => jumpState g j64
  | .jump96 => jumpState g j96
  | .load data0 data1 => stateOperand data0 data1

/-- One command as one atomic change (R11). -/
def transact (i : Instr) (a : Arch) : Arch where
  gen := genAfter i a.gen
  rndOut := if i = .next then stepResult a.gen else a.rndOut
  errIllegal := if i = .illegal then true else a.errIllegal

/-- A command sequence, in acceptance order (R35). -/
def runCommands (prog : List Instr) (a : Arch) : Arch := prog.foldl (fun a i => transact i a) a

/-- Whether the command is a jump: the four that set busy (R18). -/
def startsJump : Instr → Bool
  | .jump _ _ | .jump32 | .jump64 | .jump96 => true
  | .illegal | .init _ | .next | .load _ _ => false

/-- Port occupancy: cycles until the next accept (R104). -/
def portCycles (i : Instr) : Nat := if startsJump i then 1 + Config.jumpCycles else 1

/-- The sample presents command `i` with rst = 0 (R42). -/
def Presents (x : PortSample) (i : Instr) : Prop :=
  x.rst = some false ∧ x.cmdValid = some true ∧ decodePorts x = .ok i

/-- The sample has rst = 0 and cmd_valid at a valid level; the command fields may be anything (R42, R99). -/
def NoReset (x : PortSample) : Prop := x.rst = some false ∧ x.cmdValid.isSome = true

/-- The command accepted at the next edge, if one is: cmd_valid = 1 and cmd_ready = 1 (R42). -/
def State.accepted (s : State) : Option Instr :=
  if s.sample.rst = some false ∧ s.sample.cmdValid = some true ∧ s.busy = false then
    match decodePorts s.sample with
    | .ok i => some i
    | .error _ => none
  else none

/-- The commands accepted at the next n edges, in acceptance order (R35, R98). -/
def acceptedIn : Nat → State → List Instr
  | 0, _ => []
  | n + 1, s =>
    s.accepted.toList ++
      match step s with
      | .next t => acceptedIn n t
      | .fault _ => []
      | .refused _ => []

/-- The samples present the command sequence in order, without a reset, and stop at the run's end (R98): before a
command the host may wait, and while a jump holds the port it may drive any command it likes, which the block ignores
(R42). No sample follows the edge at which the last command has been accepted and busy = 0. -/
inductive Drives : List Instr → List PortSample → Prop where
  /-- Every command has been accepted and busy = 0: the run has ended (R98). -/
  | done : Drives [] []
  /-- The host waits for one cycle before the next command of the sequence. -/
  | wait {x : PortSample} {i : Instr} {prog : List Instr} {xs : List PortSample} :
      x.rst = some false → x.cmdValid = some false → Drives (i :: prog) xs → Drives (i :: prog) (x :: xs)
  /-- A command that leaves busy = 0 takes one edge (R42, R104). -/
  | oneEdge {x : PortSample} {i : Instr} {prog : List Instr} {xs : List PortSample} :
      Presents x i → startsJump i = false → Drives prog xs → Drives (i :: prog) (x :: xs)
  /-- A jump holds the port for its 128 engine cycles (R73). -/
  | jumping {x : PortSample} {i : Instr} {held : List PortSample} {prog : List Instr} {xs : List PortSample} :
      Presents x i → startsJump i = true → held.length = Config.jumpCycles → (∀ y ∈ held, NoReset y) →
      Drives prog xs → Drives (i :: prog) (x :: (held ++ xs))

/-- What a host drives while it waits for the port: the next command of the sequence, or nothing after the last. -/
def waitingSample : List Instr → PortSample
  | [] => .idle
  | i :: _ => presentInstr i

/-- The samples of a host that presents each command from the edge after the one before it was accepted, and holds it
until it is accepted (R98; the host of 95_test_vectors.md section 3). -/
def holdUntilAccepted : List Instr → List PortSample
  | [] => []
  | i :: prog => presentInstr i :: (List.replicate (portCycles i - 1) (waitingSample prog) ++ holdUntilAccepted prog)

/-- The samples of a host that presents each command as early as the port allows (R104). -/
def backToBack (prog : List Instr) : List PortSample :=
  prog.flatMap fun i => presentInstr i :: List.replicate (portCycles i - 1) .idle

end Sys2Proof.Machine
end

