-- ==== Sys2Proof/Safety.lean ====
section
/-! DEFINITION. The terms the statements use: what a good state is, what a host owes, what a host sees. -/

namespace Sys2Proof.Machine

/-- The engine invariant. While busy = 1 the accumulator and the working copy are those of the jump loop after k
iterations from the state still in (s0, s1), and both pulses are down (R71, R72, R74); rnd_valid and jump_done are never
up together (R17, R19). -/
structure State.Inv (s : State) : Prop where
  engine : s.busy = true → LoopState.mk s.acc s.work = jumpLoop s.p s.gen s.k.toNat
  quiet : s.busy = true → s.rndValid = false ∧ s.jumpDone = false
  onePulse : ¬ (s.rndValid = true ∧ s.jumpDone = true)

/-- The host meets at the next edge what R99 asks: rst and cmd_valid at valid levels, and the opcode and every used
operand where the edge accepts a command. -/
def State.hostObeys (s : State) : Bool :=
  s.sample.controlDriven &&
    (s.sample.rst == some true || s.busy || s.sample.cmdValid == some false || (decodePorts s.sample).isOk)

/-- Command `i` is accepted at the next edge: cmd_valid = 1 and cmd_ready = 1 (R42). -/
def State.AcceptsNext (s : State) (i : Instr) : Prop := Presents s.sample i ∧ s.busy = false

/-- rst = 1 is sampled at the next edge, with cmd_valid at a valid level. -/
def State.ResetsNext (s : State) : Prop := s.sample.rst = some true ∧ s.sample.cmdValid.isSome = true

/-- The next edge is the commit edge of a running jump (R71). -/
def State.CommitsNext (s : State) : Prop := NoReset s.sample ∧ s.busy = true ∧ s.k = 127#7

/-- The command's meaning is `f`, in every state; and one edge that accepts the command has exactly that effect, with the
sample taken (R42, R97). -/
def AnswersBy (i : Instr) (f : State → State) : Prop :=
  ∀ s : State, exec i s = .next (f s) ∧ (s.AcceptsNext i → step s = .next (f s.dropSample))

/-- No reset is sampled at the 128 edges after the next one, and cmd_valid is at a valid level there (an exhausted
list is an idle host, notes/assumptions/3.md). -/
def State.UndisturbedAfter (s : State) : Prop := ∀ m, 1 ≤ m → m ≤ 128 → NoReset (s.pins.getD m .idle)

/-- The machine answers `t` after `n` edges. -/
def RunsTo (n : Nat) (s t : State) : Prop := Sys2Proof.core.run n s = .next t

/-- R98: the run of the command sequence `prog` from `s` ends after `n` edges, in the end state `t`. Without a reset, n
edges lead to t, the commands accepted at them are prog, in order, busy = 0, and at no edge before was that so:
"It ends at the first edge after which every command of the sequence has been accepted and busy = 0. The end state is the
register state after that edge." (The run of no command at all ends before its first edge: notes/assumptions/13.md.) -/
structure RunEnds (prog : List Instr) (n : Nat) (s t : State) : Prop where
  noReset : ∀ m, m < n → NoReset (s.pins.getD m .idle)
  runs : RunsTo n s t
  accepted : acceptedIn n s = prog
  portFree : t.busy = false
  first : ∀ m u, m < n → RunsTo m s u → ¬ (acceptedIn m s = prog ∧ u.busy = false)

/-- The state has every visible register, the build and the host's inputs of the other, and the same engine registers
too where a jump runs (R23: "Their values while busy = 0 have no effect on any output"). -/
structure SameVisible (s t : State) : Prop where
  gen : s.gen = t.gen
  rndOut : s.rndOut = t.rndOut
  rndValid : s.rndValid = t.rndValid
  busy : s.busy = t.busy
  jumpDone : s.jumpDone = t.jumpDone
  errIllegal : s.errIllegal = t.errIllegal
  resetSeed : s.resetSeed = t.resetSeed
  pins : s.pins = t.pins
  engine : s.busy = true → s.p = t.p ∧ s.k = t.k ∧ s.work = t.work ∧ s.acc = t.acc

end Sys2Proof.Machine
end

