-- ==== Sys2Proof/Certificates/Slice0/Obligations.lean ====
section
/-! DEFINITION. The statements for the provers. Each docstring names the rule of spec/ it formalises. Where a next state
has the pins `s.pins.tail`, or `dropSample`, that is the model's own list of inputs (notes/assumptions/2.md, DESIGN CHOICE)
and no rule's. -/

open Sys2Proof Sys2Proof.Machine

/-! ## Encoding and decoding (30_encoding.md) -/

/-- Decoding an encoded command gives it back: from the packed word, from the ports, and from the table's numbering
(R43, R45, R48; the table's number as the model reads it, notes/assumptions/8.md, DESIGN CHOICE). -/
def Obligations.DecodeEncodeRoundTrip : Prop :=
  ∀ i : Instr, i.wellFormed = true →
    decodeWord (encode i) = i ∧ decodePorts (presentInstr i) = .ok i ∧
      decodeTableWord 131 (encode i).toNat = some i

/-- Encoding what three fields decode to gives the fields back with every ignored operand 0 (R44, R48); so two words
decode to one command exactly when op and every used operand agree. -/
def Obligations.EncodeOfDecodeZeroesIgnored : Prop :=
  (∀ f : CommandFields,
    encode (decodeFields f) =
      CommandFields.pack ⟨f.op, if f.op = 1 ∨ f.op = 3 ∨ f.op = 7 then f.data0 else 0,
        if f.op = 3 ∨ f.op = 7 then f.data1 else 0⟩) ∧
  ∀ f g : CommandFields,
    decodeFields f = decodeFields g ↔
      f.op = g.op ∧ (f.op = 1 ∨ f.op = 3 ∨ f.op = 7 → f.data0 = g.data0) ∧ (f.op = 3 ∨ f.op = 7 → f.data1 = g.data1)

/-- The operands each command uses, and an ignored operand, whatever its value, has no effect on the edge (R44). That
this holds for unknown levels too, and which unknown port a refused edge names, is the model's reading of R99 and its
choice (notes/assumptions/4.md, DEDUCED and DESIGN CHOICE). -/
def Obligations.OperandUse : Prop :=
  (∀ d0 d1 : Word,
    decodeFields ⟨0b000#3, d0, d1⟩ = .illegal ∧ decodeFields ⟨0b001#3, d0, d1⟩ = .init d0 ∧
    decodeFields ⟨0b010#3, d0, d1⟩ = .next ∧ decodeFields ⟨0b011#3, d0, d1⟩ = .jump d0 d1 ∧
    decodeFields ⟨0b100#3, d0, d1⟩ = .jump32 ∧ decodeFields ⟨0b101#3, d0, d1⟩ = .jump64 ∧
    decodeFields ⟨0b110#3, d0, d1⟩ = .jump96 ∧ decodeFields ⟨0b111#3, d0, d1⟩ = .load d0 d1) ∧
  (∀ p0 p1 : Word, ∀ i : Nat, polyBit (polyOperand p0 p1) i = if i < 64 then p0.getLsbD i else p1.getLsbD (i - 64)) ∧
  ∀ (x y : PortSample) (s : State), x.rst = y.rst → x.cmdValid = y.cmdValid → x.cmdOp = y.cmdOp →
    (x.cmdOp = some 1 ∨ x.cmdOp = some 3 ∨ x.cmdOp = some 7 → x.cmdData0 = y.cmdData0) →
    (x.cmdOp = some 3 ∨ x.cmdOp = some 7 → x.cmdData1 = y.cmdData1) →
    tick x s = tick y s

/-- R45: every packed word matches exactly one row of the opcode table, over the mask 0b111, and decodes to that row's
command; the eight rows are the eight op values; only op 000 is the reserved command. -/
def Obligations.OpcodeMapTotal : Prop :=
  (opcodeTable.map fun r => (r.op, r.mask.toNat, r.value.toNat)) =
    [(.illegal, 7, 0), (.init, 7, 1), (.next, 7, 2), (.jump, 7, 3), (.jump32, 7, 4), (.jump64, 7, 5), (.jump96, 7, 6),
      (.load, 7, 7)] ∧
  ∀ w : BitVec 131,
    (∃ r, (r ∈ opcodeTable ∧ r.matches w = true) ∧ (decodeWord w).opcode = r.op ∧
      ∀ r', r' ∈ opcodeTable → r'.matches w = true → r' = r) ∧
    ((decodeWord w).opcode.toBits.toNat = w.toNat % 8) ∧
    (decodeWord w = .illegal ↔ w.extractLsb' 0 3 = 0)

/-- R43: `word = {data1, data0, op} = data1 * 2^67 + data0 * 2^3 + op`, and the three fields come back. -/
def Obligations.PackedWordLayout : Prop :=
  (∀ f : CommandFields, f.pack.toNat = f.data1.toNat * 2 ^ 67 + f.data0.toNat * 2 ^ 3 + f.op.toNat) ∧
  (∀ f : CommandFields, CommandFields.unpack f.pack = f) ∧ ∀ w : BitVec 131, (CommandFields.unpack w).pack = w

/-- Packed words written out in 95_test_vectors.md section 3 decode to the commands beside them (their bits counted as
notes/assumptions/8.md says, DESIGN CHOICE). -/
def Obligations.ListedWordsDecode : Prop :=
  decodeTableWord 136 0x000000000000000000000000000000C89 = some (.init 401) ∧
  decodeTableWord 136 0x000000000000000000000000000000002 = some .next ∧
  decodeTableWord 136 0x000000000000000000000000000000004 = some .jump32 ∧
  decodeTableWord 136 0x000000000000000000000000000000005 = some .jump64 ∧
  decodeTableWord 136 0x000000000000000000000000000000006 = some .jump96 ∧
  decodeTableWord 136 0x0D047708C25D36990A02BDBF7BB3C0A7F = some (.load 0x14057B7EF767814F 0x1A08EE1184BA6D32) ∧
  decodeTableWord 136 0x00000000000000000000000000000000F = some (.load 0x1 0x0) ∧
  decodeTableWord 136 0x000000000000000000000000000000000 = some .illegal ∧
  decodeTableWord 136 0x000000000000000000000000000000013 = some (.jump 0x2 0x0)

/-- A step runs the command that the next edge accepts: exec of it, with the sample taken (R42, R97). The two clauses
on presentWord and withFetchWord are the model's choice, no rule's: these place a command at the next edge of any state
because they also set busy to 0, which abandons a running jump (notes/assumptions/7.md, DESIGN CHOICE); decodeTableWord
reads the number as notes/assumptions/8.md says (DESIGN CHOICE). -/
def Obligations.StepRunsPresentedCommand : Prop :=
  (∀ (s : State) (i : Instr), s.AcceptsNext i → step s = exec i s.dropSample) ∧
  (∀ (s : State) (w : BitVec 131),
    step (s.presentWord w) = exec (decodeWord w) { s with busy := false, pins := s.pins.tail }) ∧
  ∀ (s : State) (nbits w : Nat) (i : Instr), decodeTableWord nbits w = some i →
    step (s.withFetchWord nbits w) = exec i { s with busy := false, pins := s.pins.tail }

/-- A line of source written for a command assembles to it (R48). The line's layout is the model's own
(notes/assumptions/11.md). -/
def Obligations.SourceLineAssembles : Prop :=
  ∀ i : Instr, assembleLine (sourceLine i) = .ok (some (.command i))

/-! ## Reset (10_state.md, 70_reset_and_hazards.md) -/

/-- R27: the value of every register after reset, in the default build and in every build. -/
def Obligations.ResetValues : Prop :=
  State.reset.gen = ⟨0x14057B7EF767814F, 0x1A08EE1184BA6D32⟩ ∧ State.reset.resetSeed = 0 ∧
  (∀ seed pins, ∀ s : State, s = State.resetFor seed pins →
    s.gen = initState seed ∧ s.rndOut = 0 ∧ s.rndValid = false ∧ s.busy = false ∧ s.jumpDone = false ∧
    s.errIllegal = false ∧ s.p = 0 ∧ s.k = 0 ∧ s.w0 = 0 ∧ s.w1 = 0 ∧ s.t0 = 0 ∧ s.t1 = 0 ∧ s.zeroState = false)

/-- R93: at every edge where rst = 1 every register takes its reset value, whatever else is presented or runs; cmd_ready
is 0 while rst = 1; holding rst applies the same values; and the first edge after can accept a command. -/
def Obligations.ResetEdge : Prop :=
  (∀ s : State, s.ResetsNext → step s = .next (.resetFor s.resetSeed s.pins.tail)) ∧
  (∀ s : State, s.cmdReady true = false) ∧
  (∀ s t u : State, s.ResetsNext → step s = .next t → t.ResetsNext → step t = .next u →
    u = .resetFor s.resetSeed t.pins.tail) ∧
  (∀ s t : State, s.ResetsNext → step s = .next t → t.cmdReady false = true ∧
    ∀ i, t.AcceptsNext i ↔ Presents t.sample i)

/-- R95: reset during a jump aborts it. Nothing is committed, at whichever engine cycle it comes, the commit edge
included; the state becomes Init(RESET_SEED); jump_done does not pulse; the pre-jump state is visible until then, and
LOAD brings it back. -/
def Obligations.ResetAbortsJump : Prop :=
  ∀ (s u : State) (i : Instr) (m : Nat), s.AcceptsNext i → startsJump i = true → m < 128 →
    (∀ n, 1 ≤ n → n ≤ m → NoReset (s.pins.getD n .idle)) → RunsTo (m + 1) s u → u.ResetsNext →
    u.gen = s.gen ∧ u.busy = true ∧
    ∃ t, step u = .next t ∧ t.gen = initState s.resetSeed ∧ t.busy = false ∧ t.jumpDone = false ∧
      ∃ v, exec (.load u.s0 u.s1) t = .next v ∧ v.gen = s.gen

/-! ## Initialize and load (40_initialize.md) -/

/-- R50: Init runs the mixing step twice in 64-bit wraparound arithmetic, the seed threaded through. -/
def Obligations.InitMixesTwice : Prop :=
  (lcgMul.toNat = 0x5851F42D4C957F2D ∧ lcgAdd.toNat = 0x14057B7EF767814F) ∧
  ∀ seed : Word,
    (initState seed).s0.toNat = (seed.toNat * 6364136223846793005 + 1442695040888963407) % 2 ^ 64 ∧
    (initState seed).s1.toNat =
      ((initState seed).s0.toNat * 6364136223846793005 + 1442695040888963407) % 2 ^ 64

/-- Init never gives the all-zero state and distinct seeds give distinct states; one seed alone has first word 0 (the
spec's derived rule in 40_initialize.md section 1, from R50). -/
def Obligations.InitNeverZeroAndInjective : Prop :=
  (∀ seed, initState seed ≠ .zero) ∧ Function.Injective initState ∧ Function.Bijective lcg ∧
  (∀ seed, (initState seed).s0 = 0 ↔ seed = 0x9995B5B621535015)

/-- R53: INIT. Its encoding, its effect at the accept edge with everything else unchanged, its flags, its corner cases;
it does not interrupt a jump. -/
def Obligations.InitCommand : Prop :=
  (∀ seed d1, decodeFields ⟨0b001#3, seed, d1⟩ = .init seed) ∧
  (∀ seed, AnswersBy (.init seed) fun s =>
    { s with s0 := (initState seed).s0, s1 := (initState seed).s1, rndValid := false, jumpDone := false }) ∧
  (∀ seed s t, exec (.init seed) s = .next t → t.zeroState = false) ∧
  (∀ s seed, Presents s.sample (.init seed) → s.busy = true → step s = .next s.dropSample.engineStep) ∧
  initState 0 = ⟨0x14057B7EF767814F, 0x1A08EE1184BA6D32⟩ ∧
  initState 0xFFFFFFFFFFFFFFFF = ⟨0xBBB38751AAD20222, 0xB1A9556F832ABF49⟩ ∧
  initState 401 = ⟨0x6C64F673ED93B6CC, 0x97C703D5F6C9D72B⟩

/-- R54: LOAD. Its encoding, its effect at the accept edge with everything else unchanged, its flags and corner
cases. -/
def Obligations.LoadCommand : Prop :=
  (∀ d0 d1, decodeFields ⟨0b111#3, d0, d1⟩ = .load d0 d1) ∧
  (∀ d0 d1, AnswersBy (.load d0 d1) fun s => { s with s0 := d0, s1 := d1, rndValid := false, jumpDone := false }) ∧
  (∀ d0 d1 s t, exec (.load d0 d1) s = .next t → (t.zeroState = true ↔ d0 = 0 ∧ d1 = 0)) ∧
  (∀ s t, exec (.load s.s0 s.s1) s = .next t → t.arch = s.arch)

/-- R55: after LOAD (0, 0), which the block neither refuses nor corrects nor reports as an error, NEXT returns 0 and the
state stays (0, 0) at every edge, under every NEXT and jump, until INIT, another LOAD or a reset; zero_state shows
it. -/
def Obligations.ZeroStateStays : Prop :=
  (∀ s, ∃ t, exec (.load 0 0) s = .next t ∧ t.gen = .zero ∧ t.zeroState = true ∧ t.errIllegal = s.errIllegal) ∧
  (∀ s, s.gen = .zero → ∃ t, exec .next s = .next t ∧ t.rndOut = 0 ∧ t.gen = .zero) ∧
  (∀ p, jumpState .zero p = .zero) ∧
  (∀ s t : State, s.Inv → s.gen = .zero → step s = .next t → ¬ s.ResetsNext →
    (∀ i, s.AcceptsNext i → (∀ seed, i ≠ .init seed) ∧ ∀ d0 d1, i ≠ .load d0 d1) → t.gen = .zero ∧ t.zeroState = true)

/-! ## The step function (41_step.md) -/

/-- The rotation of R9, bit by bit: toward the most significant bit, by k modulo 64. -/
def Obligations.RotlMovesBitsUp : Prop :=
  (∀ (a : Word) (k i : Nat), i < 64 → (rotl a k).getLsbD i = a.getLsbD ((i + (64 - k % 64)) % 64)) ∧
  ∀ a, rotl a 0 = a

/-- R56: Step bit for bit, all three outputs from the pair before the step. The result is given in exact arithmetic
reduced mod 2^64, the new words bit by bit. (The one edge that writes them is NextCommand's.) -/
def Obligations.StepBitExact : Prop :=
  ∀ s : StatePair,
    (∀ m : Nat, m = (s.s0.toNat + s.s1.toNat) * 9 % 2 ^ 64 →
      (stepResult s).toNat = (m * 2 ^ 29 % 2 ^ 64 + m / 2 ^ 35 + s.s0.toNat) % 2 ^ 64) ∧
    ∀ i, i < 64 →
      (stepState s).s0.getLsbD i = (s.s0.getLsbD i ^^ s.s1.getLsbD ((i + 35) % 64)) ∧
      (stepState s).s1.getLsbD i = (s.s0.getLsbD i ^^ (decide (9 ≤ i) && s.s1.getLsbD (i - 9)))

/-- R59: T is linear over GF(2); the output is not. -/
def Obligations.TransitionLinear : Prop :=
  (∀ a b, stepState (xorPair a b) = xorPair (stepState a) (stepState b)) ∧ stepState .zero = .zero ∧
  ∃ a b, stepResult (xorPair a b) ≠ stepResult a ^^^ stepResult b

/-- T is invertible and its order is exactly 2^128 - 1: every non-zero state has that exact period, and never reaches
the all-zero state (the spec's derived rule in 41_step.md section 1, from R56). -/
def Obligations.FullPeriod : Prop :=
  Function.Bijective stepState ∧
  ∀ s : StatePair, s ≠ .zero →
    stepState^[2 ^ 128 - 1] s = s ∧ (∀ n, 0 < n → n < 2 ^ 128 - 1 → stepState^[n] s ≠ s) ∧ ∀ n, stepState^[n] s ≠ .zero

/-- R61: NEXT. Its encoding, its effect at the accept edge with everything else unchanged, its flags and corner
cases. -/
def Obligations.NextCommand : Prop :=
  (∀ d0 d1, decodeFields ⟨0b010#3, d0, d1⟩ = .next) ∧
  (AnswersBy .next fun s =>
    { s with s0 := (stepState s.gen).s0, s1 := (stepState s.gen).s1, rndOut := stepResult s.gen, rndValid := true,
             jumpDone := false }) ∧
  (∀ s t, exec .next s = .next t → (t.zeroState = true ↔ s.gen = .zero)) ∧
  (∀ a b c : Word, (∀ i, i < 55 → b.getLsbD i = c.getLsbD i) → (stepState ⟨a, b⟩).s1 = (stepState ⟨a, c⟩).s1) ∧
  stepResult .zero = 0 ∧ stepState .zero = .zero ∧
  stepResult ⟨0xFFFFFFFFFFFFFFFF, 0xFFFFFFFFFFFFFFFF⟩ = 0xFFFFFFFDDFFFFFFE ∧
  stepState ⟨0xFFFFFFFFFFFFFFFF, 0xFFFFFFFFFFFFFFFF⟩ = ⟨0, 0x1FF⟩ ∧
  stepResult ⟨0x1, 0x71C71C71C71C71C6⟩ = 0 ∧
  stepResult ⟨0x6C64F673ED93B6CC, 0x97C703D5F6C9D72B⟩ = 0x8D4E3629D245305F ∧
  stepState ⟨0x6C64F673ED93B6CC, 0x97C703D5F6C9D72B⟩ = ⟨0xD2BDCC969F6B56B6, 0xE2635D9E7E3DE0CC⟩

/-- The output sequence depends on the state alone: two runs of INIT seed followed by the same host inputs give the same
states and the same new outputs at every edge, whatever the blocks held before (the spec's derived rule in 41_step.md
section 2, from R56 and R51). -/
def Obligations.OutputsDetermined : Prop :=
  ∀ (s t : State) (seed : Word), s.AcceptsNext (.init seed) → t.busy = false → s.pins = t.pins →
    s.resetSeed = t.resetSeed → ∀ (n : Nat) (s' : State), RunsTo (n + 1) s s' →
      ∃ t', RunsTo (n + 1) t t' ∧ s'.gen = t'.gen ∧ s'.busy = t'.busy ∧ s'.rndValid = t'.rndValid ∧
        s'.jumpDone = t'.jumpDone ∧ (s'.rndValid = true → s'.rndOut = t'.rndOut)

/-! ## The jump engine (42_jump_engine.md) -/

/-- Jump(s, P) is the XOR of T^i(s) over the set bits i of P (the spec's derived rule in section 1, from R63 and
R59). -/
def Obligations.JumpIsPolynomialInT : Prop :=
  ∀ (s : StatePair) (p : GfPoly),
    jumpState s p =
      (List.range 128).foldl (fun acc i => if p.getLsbD i then xorPair acc (stepState^[i] s) else acc) .zero

/-- Jump by x^n mod C(x) is n steps (the spec's derived rules in section 1: jump/step equivalence, from R63; C(x) is
the spec's own computation). -/
def Obligations.JumpByPowerIsSteps : Prop :=
  ∀ (n : Nat) (s : StatePair), jumpState s (polyXPow n) = stepState^[n] s

/-- C(x) is the listed polynomial; it annihilates T; and x has order exactly 2^128 - 1 modulo it (the spec's own
computation in section 1). -/
def Obligations.CharacteristicPolynomial : Prop :=
  (∀ i, charPolyLow.getLsbD i = true ↔
    i ∈ [0, 8, 10, 13, 14, 20, 21, 22, 23, 29, 31, 36, 45, 48, 49, 57, 60, 64, 65, 66, 68, 72, 73, 74, 76, 77, 82, 85,
      88, 90, 92, 93, 98, 101, 104, 106, 112, 114]) ∧
  (∀ s, xorPair (stepState^[128] s) (jumpState s charPolyLow) = .zero) ∧
  polyXPow (2 ^ 128 - 1) = 1 ∧ ∀ n, 0 < n → n < 2 ^ 128 - 1 → polyXPow n ≠ 1

/-- The special polynomials (the spec's derived table in section 1, from R63). -/
def Obligations.SpecialPolynomials : Prop :=
  ∀ s : StatePair,
    jumpState s 0 = .zero ∧ jumpState s 1 = s ∧ jumpState s 2 = stepState s ∧ jumpState s 3 = xorPair s (stepState s) ∧
    (∀ n, n < 128 → jumpState s (1#128 <<< n) = stepState^[n] s) ∧
    jumpState s 0x000505243524371712032010A0F06501#128 = stepState^[128] s

/-- From a non-zero state a jump gives (0, 0) exactly when P = 0; from the all-zero state every jump does; so a named
jump never creates the all-zero state (the spec's derived rule in section 1, from R63 and R56). -/
def Obligations.JumpZeroOnlyByZeroPolynomial : Prop :=
  (∀ (s : StatePair) (p : GfPoly), s ≠ .zero → (jumpState s p = .zero ↔ p = 0)) ∧
  (∀ p, jumpState .zero p = .zero) ∧
  ∀ s : StatePair, s ≠ .zero → jumpState s j32 ≠ .zero ∧ jumpState s j64 ≠ .zero ∧ jumpState s j96 ≠ .zero

/-- Jumps compose as products mod C, and commute with each other and with T (the spec's derived rule in section 1, from
R63 and R59). -/
def Obligations.JumpsComposeAndCommute : Prop :=
  ∀ (s : StatePair) (p q : GfPoly),
    jumpState (jumpState s p) q = jumpState s (polyMul p q) ∧
    jumpState (jumpState s p) q = jumpState (jumpState s q) p ∧
    jumpState (stepState s) p = stepState (jumpState s p) ∧
    jumpState (jumpState s j64) j64 = stepState^[2 ^ 65] s

/-- R70: JUMP. Its encoding, its effect at the accept edge with everything else unchanged, the commit 128 edges later,
and its corner cases. -/
def Obligations.JumpCommand : Prop :=
  (∀ d0 d1, decodeFields ⟨0b011#3, d0, d1⟩ = .jump d0 d1) ∧
  (∀ p0 p1, AnswersBy (.jump p0 p1) fun s =>
    { s with p := p1 ++ p0, w0 := s.s0, w1 := s.s1, t0 := 0, t1 := 0, k := 0, busy := true, rndValid := false,
             jumpDone := false }) ∧
  (∀ (s : State) (p0 p1 : Word), s.AcceptsNext (.jump p0 p1) → s.UndisturbedAfter →
    (∃ t, RunsTo 128 s t ∧ t.gen = s.gen ∧ t.busy = true) ∧
    ∃ t, RunsTo 129 s t ∧ t.gen = jumpState s.gen (p1 ++ p0) ∧ t.busy = false ∧ t.jumpDone = true) ∧
  (∀ s : StatePair, jumpState s (0#64 ++ 0#64) = .zero ∧ jumpState s (0#64 ++ 1#64) = s ∧
    jumpState s (0#64 ++ 2#64) = stepState s ∧
    jumpState s (0x8000000000000000#64 ++ 0#64) = stepState^[127] s ∧
    jumpState s (0xFFFFFFFFFFFFFFFF#64 ++ 0xFFFFFFFFFFFFFFFF#64) =
      (List.range 128).foldl (fun acc i => xorPair acc (stepState^[i] s)) .zero) ∧
  (∀ p, jumpState .zero p = .zero) ∧
  jumpState ⟨0x8B38637963B4B7A0, 0x74A5A5F4B505E908⟩ (0x688E6BFC19485AB1#64 ++ 0x40165CBAE9CA6DEB#64) =
    ⟨0xA20E518250A6FF34, 0x6F80EE02ACF8EBC2⟩

/-- R71: an edge with rst = 0 and busy = 1 processes polynomial bit k, whatever command is presented, and commits at
k = 127. -/
def Obligations.EngineStepEdge : Prop :=
  ∀ (s : State) (u0 u1 : Word), NoReset s.sample → s.busy = true →
    (u0, u1) = (if s.p.getLsbD s.k.toNat then (s.t0 ^^^ s.w0, s.t1 ^^^ s.w1) else (s.t0, s.t1)) →
    (∀ i, ¬ s.AcceptsNext i) ∧
    step s = .next
      (if s.k.toNat = 127 then
        { s with w0 := (stepState ⟨s.w0, s.w1⟩).s0, w1 := (stepState ⟨s.w0, s.w1⟩).s1, t0 := u0, t1 := u1,
                 rndValid := false, s0 := u0, s1 := u1, busy := false, jumpDone := true, k := 0, pins := s.pins.tail }
      else
        { s with w0 := (stepState ⟨s.w0, s.w1⟩).s0, w1 := (stepState ⟨s.w0, s.w1⟩).s1, t0 := u0, t1 := u1,
                 rndValid := false, k := BitVec.ofNat 7 (s.k.toNat + 1), jumpDone := false, pins := s.pins.tail })

/-- The cycle timeline (R73) of a jump accepted at the next edge (cycle n + m shows the state after m edges): busy and
the state before the jump for 128 cycles, then the committed state with jump_done, which falls again unless another
jump commits. While it runs no intermediate state shows: that zero_state and rnd_out keep their values is the spec's
derivation in section 3 (R74, from R71 and R72). -/
def Obligations.JumpTimeline : Prop :=
  (∀ (s : State) (i : Instr), s.AcceptsNext i → startsJump i = true → s.UndisturbedAfter →
    s.busy = false ∧ s.cmdReady false = true ∧
    (∀ m, 1 ≤ m → m ≤ 128 → ∃ t, RunsTo m s t ∧ t.busy = true ∧ t.cmdReady false = false ∧ t.gen = s.gen ∧
      t.zeroState = s.zeroState ∧ t.jumpDone = false ∧ t.rndValid = false ∧ t.rndOut = s.rndOut ∧
      t.errIllegal = s.errIllegal) ∧
    ∃ t, RunsTo 129 s t ∧ t.busy = false ∧ t.cmdReady false = true ∧ t.gen = genAfter i s.gen ∧ t.jumpDone = true ∧
      t.rndOut = s.rndOut ∧ t.errIllegal = s.errIllegal ∧ ∀ u, step t = .next u → u.jumpDone = false) ∧
  ∀ s t : State, step s = .next t → ¬ s.CommitsNext → t.jumpDone = false

/-- The engine invariant is kept by every edge: while busy = 1, the engine's registers are the jump loop after k
iterations from the state still in (s0, s1) (42_jump_engine.md section 3, from R70 and R71). -/
def Obligations.EngineInvariantKept : Prop :=
  ∀ s t : State, s.Inv → step s = .next t → t.Inv

/-- The engine invariant holds after reset, in every build. -/
def Obligations.EngineInvariantAtReset : Prop :=
  State.reset.Inv ∧ ∀ seed pins, (State.resetFor seed pins).Inv

/-! ## Named jumps (43_named_jumps.md) -/

/-- The named constants advance every state by 2^32, 2^64 and 2^96 steps (the spec's own check in section 1). -/
def Obligations.NamedJumpsAreStepCounts : Prop :=
  ∀ s : StatePair, jumpState s j32 = stepState^[2 ^ 32] s ∧ jumpState s j64 = stepState^[2 ^ 64] s ∧
    jumpState s j96 = stepState^[2 ^ 96] s

/-- A named jump has exactly the effect of JUMP with the constant's words as operands, and that effect is to start the
engine, with everything else unchanged; the constants are those of R75, p0 in the low-order half (the spec's derived
rule in section 2, from R70 and R75). -/
def Obligations.NamedJumpsEqualGeneric : Prop :=
  (j32 = polyOperand 0x40165CBAE9CA6DEB 0x688E6BFC19485AB1 ∧ j64 = polyOperand 0xF4DF34E424CA5C56 0x2FE2DE5C2E12F601 ∧
    j96 = polyOperand 0x185F4DF8B7634607 0x95A98C7025F908B2) ∧
  (∀ s, exec .jump32 s = exec (.jump 0x40165CBAE9CA6DEB 0x688E6BFC19485AB1) s ∧
    exec .jump64 s = exec (.jump 0xF4DF34E424CA5C56 0x2FE2DE5C2E12F601) s ∧
    exec .jump96 s = exec (.jump 0x185F4DF8B7634607 0x95A98C7025F908B2) s) ∧
  ∀ i p, (i, p) ∈ [(Instr.jump32, 0x688E6BFC19485AB140165CBAE9CA6DEB#128), (.jump64, 0x2FE2DE5C2E12F601F4DF34E424CA5C56#128),
      (.jump96, 0x95A98C7025F908B2185F4DF8B7634607#128)] →
    AnswersBy i fun s =>
      { s with p := p, w0 := s.s0, w1 := s.s1, t0 := 0, t1 := 0, k := 0, busy := true, rndValid := false,
               jumpDone := false }

/-- R77, R78, R79: encoding, commit and corner cases of the named jumps: 128 edges after the accept edge the state is
Jump(s, J) = T^(2^e)(s), with rnd_out unchanged, and all-zero exactly when it was; the examples are the source's. -/
def Obligations.NamedJumpCommands : Prop :=
  (∀ d0 d1, decodeFields ⟨0b100#3, d0, d1⟩ = .jump32 ∧ decodeFields ⟨0b101#3, d0, d1⟩ = .jump64 ∧
    decodeFields ⟨0b110#3, d0, d1⟩ = .jump96) ∧
  (∀ i j e, (i, j, e) ∈ [(Instr.jump32, 0x688E6BFC19485AB140165CBAE9CA6DEB#128, 32),
      (.jump64, 0x2FE2DE5C2E12F601F4DF34E424CA5C56#128, 64), (.jump96, 0x95A98C7025F908B2185F4DF8B7634607#128, 96)] →
    (AnswersBy i fun s =>
      { s with p := j, w0 := s.s0, w1 := s.s1, t0 := 0, t1 := 0, k := 0, busy := true, rndValid := false,
               jumpDone := false }) ∧
    ∀ s : State, s.AcceptsNext i → s.UndisturbedAfter →
      (∀ m, 1 ≤ m → m ≤ 128 → ∃ t, RunsTo m s t ∧ t.busy = true) ∧
      ∃ t, RunsTo 129 s t ∧ t.gen = jumpState s.gen j ∧ t.gen = stepState^[2 ^ e] s.gen ∧ t.busy = false ∧
        t.jumpDone = true ∧ t.rndOut = s.rndOut ∧ (t.gen = .zero ↔ s.gen = .zero)) ∧
  jumpState ⟨0x8B38637963B4B7A0, 0x74A5A5F4B505E908⟩ j32 = ⟨0xA20E518250A6FF34, 0x6F80EE02ACF8EBC2⟩ ∧
  jumpState ⟨0xA20E518250A6FF34, 0x6F80EE02ACF8EBC2⟩ j64 = ⟨0x38CB1C2C7821B08F, 0xD518DCC9FA1C92BA⟩ ∧
  jumpState ⟨0x38CB1C2C7821B08F, 0xD518DCC9FA1C92BA⟩ j96 = ⟨0x77AF4FDC1B861F98, 0x16485EFAC22AE75B⟩

/-- Repeated named jumps start sub-streams that do not overlap: for e = 32, 64 and 96, with at most
(2^128 - 1) / 2^e sub-streams of 2^e outputs each (the spec's derived rule in section 2, from R75 and R56). -/
def Obligations.SubstreamsDisjoint : Prop :=
  ∀ j e, (j, e) ∈ [(j32, 32), (j64, 64), (j96, 96)] → ∀ s : StatePair, s ≠ .zero →
    ∀ a b i k : Nat, a < (2 ^ 128 - 1) / 2 ^ e → b < (2 ^ 128 - 1) / 2 ^ e → i < 2 ^ e → k < 2 ^ e →
      stepState^[i] ((fun g => jumpState g j)^[a] s) = stepState^[k] ((fun g => jumpState g j)^[b] s) → a = b ∧ i = k

/-! ## Errors, priority and flags (60_exceptions.md, 10_state.md) -/

/-- R82: an accepted command with op 000, whatever its data, sets err_illegal and has no other effect but that of every
edge on the two pulses. -/
def Obligations.IllegalCommand : Prop :=
  (∀ d0 d1, decodeFields ⟨0b000#3, d0, d1⟩ = .illegal) ∧
  AnswersBy .illegal fun s => { s with errIllegal := true, rndValid := false, jumpDone := false }

/-- R20: err_illegal is set at an edge that accepts a reserved opcode and cleared by reset alone; no command reads it,
and it stops no later command. -/
def Obligations.ErrIllegalSticky : Prop :=
  (∀ s t : State, step s = .next t →
    (s.ResetsNext → t.errIllegal = false) ∧
    (¬ s.ResetsNext → (t.errIllegal = true ↔ s.errIllegal = true ∨ s.AcceptsNext .illegal))) ∧
  (∀ (s : State) (i : Instr) (e : Bool), s.AcceptsNext i ↔ ({ s with errIllegal := e } : State).AcceptsNext i) ∧
  ∀ (s t : State) (e : Bool), step s = .next t →
    ∃ e', step { s with errIllegal := e } = .next { t with errIllegal := e' }

/-- No command reads a flag: whatever rnd_valid, jump_done and err_illegal hold, an edge does the same to everything but
err_illegal (10_state.md section 2, R22). -/
def Obligations.FlagsNeverRead : Prop :=
  ∀ (s t : State) (v j e : Bool), step s = .next t →
    ∃ e', step { s with rndValid := v, jumpDone := j, errIllegal := e } = .next { t with errIllegal := e' }

/-- R84: exactly one of four things happens at an edge, in this priority: reset, an engine step, an accepted command,
idle. -/
def Obligations.EdgePriority : Prop :=
  ∀ s : State,
    (s.ResetsNext → step s = .next (.resetFor s.resetSeed s.pins.tail) ∧ ∀ i, ¬ s.AcceptsNext i) ∧
    (NoReset s.sample → s.busy = true → step s = .next s.dropSample.engineStep ∧ ∀ i, ¬ s.AcceptsNext i) ∧
    (∀ i, s.sample.rst = some false → s.busy = false → s.sample.cmdValid = some true → decodePorts s.sample = .ok i →
      s.AcceptsNext i ∧ step s = exec i s.dropSample) ∧
    (s.sample.rst = some false → s.busy = false → s.sample.cmdValid = some false →
      step s = .next { s with rndValid := false, jumpDone := false, pins := s.pins.tail } ∧ ∀ i, ¬ s.AcceptsNext i)

/-- R42: cmd_ready is rst = 0 and busy = 0; while it is 0 the block ignores the command inputs, and nothing is accepted;
INIT, LOAD, NEXT and the reserved opcode leave busy as it was, a jump takes cmd_ready away. -/
def Obligations.CommandReady : Prop :=
  (∀ (s : State) (rst : Bool), s.cmdReady rst = true ↔ rst = false ∧ s.busy = false) ∧
  (∀ (s : State) (rst : Bool) (x y : PortSample), s.cmdReady rst = false → x.rst = some rst → y.rst = some rst →
    x.cmdValid.isSome = true → y.cmdValid.isSome = true → tick x s = tick y s ∧ ∃ t, tick x s = .next t) ∧
  (∀ (s : State) (i : Instr), s.AcceptsNext i ↔
    s.sample.cmdValid = some true ∧ (∃ rst, s.sample.rst = some rst ∧ s.cmdReady rst = true) ∧
      decodePorts s.sample = .ok i) ∧
  (∀ (i : Instr) (s t : State), exec i s = .next t →
    (startsJump i = false → t.busy = s.busy) ∧ (startsJump i = true → ∀ rst, t.cmdReady rst = false))

/-- Each output port shows its register (R40, R26); zero_state is s0 = 0 and s1 = 0 (R21), cmd_ready is rst = 0 and
busy = 0 (R42); no output depends on the command inputs (R40). So two states show the same outputs exactly when the
visible registers agree. -/
def Obligations.OutputPorts : Prop :=
  (∀ (s : State) (rst : Bool),
    (s.outputs rst).rndOut = s.rndOut ∧ (s.outputs rst).rndValid = s.rndValid ∧ (s.outputs rst).stateS0 = s.s0 ∧
    (s.outputs rst).stateS1 = s.s1 ∧ (s.outputs rst).busy = s.busy ∧ (s.outputs rst).jumpDone = s.jumpDone ∧
    (s.outputs rst).errIllegal = s.errIllegal ∧ ((s.outputs rst).zeroState = true ↔ s.s0 = 0 ∧ s.s1 = 0) ∧
    (s.outputs rst).cmdReady = (!rst && !s.busy)) ∧
  (∀ (s : State) (rst : Bool) (xs : List PortSample), ({ s with pins := xs } : State).outputs rst = s.outputs rst) ∧
  ∀ (s t : State) (rst : Bool), s.outputs rst = t.outputs rst ↔
    s.gen = t.gen ∧ s.rndOut = t.rndOut ∧ s.rndValid = t.rndValid ∧ s.busy = t.busy ∧ s.jumpDone = t.jumpDone ∧
      s.errIllegal = t.errIllegal

/-- R14: who writes (s0, s1): accepted INIT, LOAD and NEXT, the commit of a jump, and reset; nothing else does. -/
def Obligations.StateWriters : Prop :=
  ∀ s t : State, s.Inv → step s = .next t →
    (s.ResetsNext → t.gen = initState s.resetSeed) ∧
    (s.CommitsNext → t.gen = jumpState s.gen s.p) ∧
    (∀ seed, s.AcceptsNext (.init seed) → t.gen = initState seed) ∧
    (∀ d0 d1, s.AcceptsNext (.load d0 d1) → t.gen = ⟨d0, d1⟩) ∧
    (s.AcceptsNext .next → t.gen = stepState s.gen) ∧
    (t.gen ≠ s.gen → s.ResetsNext ∨ s.CommitsNext ∨ s.AcceptsNext .next ∨ (∃ seed, s.AcceptsNext (.init seed)) ∨
      ∃ d0 d1, s.AcceptsNext (.load d0 d1))

/-- From a non-zero state, only LOAD (0, 0) and the commit of a jump with P = 0 reach the all-zero state (the spec's
derived rule in 10_state.md section 1, R15, from R52, R60 and R67). -/
def Obligations.OnlyLoadAndZeroJumpReachZero : Prop :=
  ∀ s t : State, s.Inv → s.gen ≠ .zero → step s = .next t →
    (t.gen = .zero ↔ s.AcceptsNext (.load 0 0) ∨ (s.CommitsNext ∧ s.p = 0))

/-- R16: rnd_out is written by an accepted NEXT and by reset, and by nothing else. -/
def Obligations.RndOutWriters : Prop :=
  ∀ s t : State, step s = .next t →
    (s.AcceptsNext .next → t.rndOut = stepResult s.gen) ∧ (s.ResetsNext → t.rndOut = 0) ∧
    (¬ s.AcceptsNext .next → ¬ s.ResetsNext → t.rndOut = s.rndOut)

/-- R17: rnd_valid is 1 for exactly the cycle after an edge that accepts NEXT; it stays 1 over consecutive NEXTs, with
rnd_out written at every edge. -/
def Obligations.RndValidPulse : Prop :=
  (∀ s t : State, step s = .next t → (t.rndValid = true ↔ s.AcceptsNext .next)) ∧
  ∀ s t u : State, step s = .next t → step t = .next u → s.AcceptsNext .next → t.AcceptsNext .next →
    t.rndValid = true ∧ t.rndOut = stepResult s.gen ∧ u.rndValid = true ∧ u.rndOut = stepResult (stepState s.gen)

/-- R18: busy is set at the edge that accepts a jump and cleared at its commit edge (and by reset); while it is 1 no
command is accepted. -/
def Obligations.BusyWhileJumping : Prop :=
  ∀ s t : State, step s = .next t →
    (t.busy = true ↔ (∃ i, s.AcceptsNext i ∧ startsJump i = true) ∨
      (s.busy = true ∧ NoReset s.sample ∧ ¬ s.CommitsNext)) ∧
    (s.busy = true → ∀ i, ¬ s.AcceptsNext i)

/-- jump_done is 1 for exactly the cycle after a commit edge, and never for two cycles in a row (10_state.md section 2,
R19, in part the spec's derivation). -/
def Obligations.JumpDonePulse : Prop :=
  (∀ s t : State, step s = .next t → (t.jumpDone = true ↔ s.CommitsNext)) ∧
  ∀ s t u : State, step s = .next t → step t = .next u → t.jumpDone = true → u.jumpDone = false

/-! ## Frames and completion -/

/-- Every command completes: its meaning answers a next state, with the build parameter and the host's inputs
untouched, and one step is that meaning, with the sample taken, wherever the command is accepted (R42, R83, R97). On a
busy state, where no command is accepted, exec is the model's choice (notes/assumptions/6.md, DEDUCED). -/
def Obligations.EveryCommandCompletes : Prop :=
  ∀ (i : Instr) (s : State),
    (∃ t, exec i s = .next t ∧ t.resetSeed = s.resetSeed ∧ t.pins = s.pins ∧ t.jumpDone = false ∧
      (t.rndValid = true ↔ i = .next)) ∧
    (s.AcceptsNext i → step s = exec i s.dropSample)

/-- The frame of the commands that leave busy = 0: INIT and LOAD change only (s0, s1) and the two pulses; NEXT these and
rnd_out; ILLEGAL only err_illegal and the pulses. busy and the engine registers are unchanged by all four. -/
def Obligations.OneEdgeCommandFrame : Prop :=
  ∀ (i : Instr) (s t : State), startsJump i = false → exec i s = .next t →
    t.busy = s.busy ∧ t.p = s.p ∧ t.k = s.k ∧ t.w0 = s.w0 ∧ t.w1 = s.w1 ∧ t.t0 = s.t0 ∧ t.t1 = s.t1 ∧
    t.resetSeed = s.resetSeed ∧ t.pins = s.pins ∧
    (i ≠ .next → t.rndOut = s.rndOut) ∧ (i ≠ .illegal → t.errIllegal = s.errIllegal) ∧
    (i = .illegal → t.s0 = s.s0 ∧ t.s1 = s.s1)

/-- The frame of a jump's accept edge: (s0, s1), rnd_out and err_illegal are unchanged; only the engine registers, busy
and the pulses are written. -/
def Obligations.JumpAcceptFrame : Prop :=
  ∀ (i : Instr) (s t : State), startsJump i = true → exec i s = .next t →
    t.s0 = s.s0 ∧ t.s1 = s.s1 ∧ t.rndOut = s.rndOut ∧ t.errIllegal = s.errIllegal ∧ t.resetSeed = s.resetSeed ∧
    t.pins = s.pins ∧ t.busy = true ∧ t.k = 0 ∧ t.work = s.gen ∧ t.acc = .zero ∧
    genAfter i s.gen = jumpState s.gen t.p

/-! ## Whole machine -/

/-- The cycle level implements the transaction level (00_scope.md R11, 20_memory.md R35, 70_reset_and_hazards.md R98).
Whatever samples present a command sequence without a reset, with whatever waits between commands and whatever commands
presented while a jump runs, the run ends after exactly those samples: at the first edge with every command accepted and
busy = 0. And wherever a run ends, its end state is the register state after that edge: the state, the last output and
the error bit are those of the commands applied atomically in order, and the pulses are those of the last command. (The run
of no command ends where it starts: notes/assumptions/13.md, DESIGN CHOICE.) -/
def Obligations.CyclesImplementTransactions : Prop :=
  (∀ (prog : List Instr) (xs rest : List PortSample) (s : State), Drives prog xs → s.busy = false →
    s.pins = xs ++ rest → ∃ t, RunEnds prog xs.length s t ∧ t.pins = rest ∧ t.arch = runCommands prog s.arch) ∧
  ∀ (prog : List Instr) (n : Nat) (s t : State), s.busy = false → RunEnds prog n s t →
    t.arch = runCommands prog s.arch ∧
    (prog ≠ [] → (t.rndValid = true ↔ prog.getLast? = some .next) ∧
      (t.jumpDone = true ↔ ∃ i, prog.getLast? = some i ∧ startsJump i = true))

/-- The run of a command sequence presented as early as the port allows ends after the sum of the commands' port
occupancies: 1 cycle for INIT, LOAD, NEXT and ILLEGAL, 129 for a jump; so does the run of a host that holds each command
until it is accepted, since the port is free again after at most 128 cycles, and so every such run ends; the source's
sequence ends at edge 392 (70_reset_and_hazards.md section 5, R104; section 3, R98). (That the run of no command ends after
0 edges is the model's choice: notes/assumptions/13.md, DESIGN CHOICE.) -/
def Obligations.BackToBackTiming : Prop :=
  (∀ (prog : List Instr) (xs rest : List PortSample) (s : State), xs = backToBack prog ∨ xs = holdUntilAccepted prog →
    s.busy = false → s.pins = xs ++ rest →
    ∃ t, RunEnds prog (prog.map portCycles).sum s t ∧ t.pins = rest ∧ t.arch = runCommands prog s.arch) ∧
  (∀ s : State, (∀ m, m < 128 → NoReset (s.pins.getD m .idle)) → ∃ n t, n ≤ 128 ∧ RunsTo n s t ∧ t.busy = false) ∧
  (∀ i, portCycles i = match i with
    | .illegal | .init _ | .next | .load _ _ => 1
    | .jump _ _ | .jump32 | .jump64 | .jump96 => 129) ∧
  ([Instr.init 401, .next, .next, .next, .next, .jump32, .jump64, .jump96].map portCycles).sum = 392

/-- The engine registers cannot be seen while busy = 0: two blocks that agree on what is visible (and on the engine where
a jump runs) agree on it after every run of the same inputs, and show the same outputs (10_state.md section 3, R23). -/
def Obligations.IdleEngineInvisible : Prop :=
  ∀ (n : Nat) (s t s' : State), SameVisible s t → RunsTo n s s' →
    ∃ t', RunsTo n t t' ∧ SameVisible s' t' ∧ ∀ rst, s'.outputs rst = t'.outputs rst

/-- A step goes on exactly when the host drives what R99 asks of it; where it does not, the step is refused by the name
of a port at an unknown level; no step ever ends in a fault (70_reset_and_hazards.md R99, 60_exceptions.md R83; which
edges use a port is notes/assumptions/4.md's reading of R99, DEDUCED). -/
def Obligations.OnlyUnknownLevelsStop : Prop :=
  (∀ s : State, s.hostObeys = true ↔ ∃ t, step s = .next t) ∧
  (∀ s : State, s.hostObeys = false → ∃ port, step s = .refused (.unknownLevel port) ∧
    (port = .rst → s.sample.rst = none) ∧ (port = .cmdValid → s.sample.cmdValid = none) ∧
    (port = .cmdOp → s.sample.cmdOp = none) ∧ (port = .cmdData0 → s.sample.cmdData0 = none) ∧
    (port = .cmdData1 → s.sample.cmdData1 = none)) ∧
  ∀ (s : State) (r : Fault), step s ≠ .fault r

/-- The build parameter never changes (00_scope.md section 4, R7), and an edge takes the first sample of the list of the
host's inputs (30_encoding.md R41). The list, and that an edge leaves its rest, are the model's choice
(notes/assumptions/2.md, DESIGN CHOICE). -/
def Obligations.EdgeTakesOneSample : Prop :=
  ∀ s t : State, step s = .next t → t.resetSeed = s.resetSeed ∧ t.pins = s.pins.tail

/-- Instances share nothing (60_exceptions.md section 5, R91): an edge of one instance leaves every other as it was, is a
step of that instance alone, and depends on no other. Instances as a list of states with edges one at a time, and so what
it means that edges commute, are the model's choice (notes/assumptions/12.md, DESIGN CHOICE). -/
def Obligations.InstancesShareNothing : Prop :=
  (∀ (j : Nat) (bs cs : List State), stepInstance j bs = .next cs →
    cs.length = bs.length ∧ (∀ m, m ≠ j → cs[m]? = bs[m]?) ∧
    ∀ s, bs[j]? = some s → ∃ t, step s = .next t ∧ cs[j]? = some t) ∧
  ∀ (j m : Nat) (bs cs ds : List State), j ≠ m → stepInstance j bs = .next cs → stepInstance m cs = .next ds →
    ∃ es, stepInstance m bs = .next es ∧ stepInstance j es = .next ds

/-! ## Assembler (30_encoding.md section 5) -/

/-- The pseudo-instructions expand to commands with the effects the table gives: STEP advances by one step, JUMP0 leaves
the state, JUMPN N advances by N steps (and is P = 2^N for N < 128), SEED is INIT (R49; the polynomials rest on the
spec's derivation). -/
def Obligations.PseudoInstructionEffects : Prop :=
  (∀ g, genAfter (expandPseudo .step) g = stepState g) ∧ (∀ g, genAfter (expandPseudo .jump0) g = g) ∧
  (∀ n g, genAfter (expandPseudo (.jumpN n)) g = stepState^[n] g) ∧
  (∀ n, n < 128 → ∃ p0 p1, expandPseudo (.jumpN n) = .jump p0 p1 ∧ p1 ++ p0 = 1#128 <<< n) ∧
  (∀ s, expandPseudo (.seed s) = .init s) ∧
  ∀ ps, (∀ s, ps ≠ .seed s) → startsJump (expandPseudo ps) = true

/-- The power by squaring that the assembler computes for JUMPN's x^N mod C(x) is the power one factor at a time. Both
are the model's own algorithms, no rule's: R49 asks for the polynomial and not for a way to compute it
(notes/assumptions/11.md, DESIGN CHOICE). -/
def Obligations.PowerBySquaring : Prop :=
  ∀ n, polyXPowFast n = polyXPow n
end

