-- ==== Sys2Proof/Laws/Decode.lean ====
section
/-! SUPPORT. The command word's fields and the decoder on presented samples. -/

namespace Sys2Proof

theorem ofBits_toBits (o : Opcode) : Opcode.ofBits o.toBits = o := by
  cases o <;> rfl

@[simp] theorem opcode_instr (o : Opcode) (d0 d1 : Word) : (o.instr d0 d1).opcode = o := by
  cases o <;> rfl

/-- The three fields come back out of the packed word. -/
theorem unpack_pack (f : CommandFields) : CommandFields.unpack f.pack = f := by
  obtain ⟨op, d0, d1⟩ := f
  simp only [CommandFields.unpack, CommandFields.pack, CommandFields.mk.injEq]
  refine ⟨?_, ?_, ?_⟩ <;> ext i hi <;> simp <;> grind

/-- A presented command decodes by its fields. -/
@[simp] theorem decodePorts_present (f : CommandFields) : decodePorts f.present = .ok (decodeFields f) := by
  simp [decodePorts, CommandFields.present]

namespace Machine

/-- A presented word is a sample that presents the word's command. -/
theorem presents_present (f : CommandFields) : Presents f.present (decodeFields f) :=
  ⟨rfl, rfl, decodePorts_present f⟩

/-- A sample presents at most one command. -/
theorem Presents.unique {x : PortSample} {i j : Instr} (hi : Presents x i) (hj : Presents x j) : i = j :=
  Except.ok.inj (hi.2.2.symm.trans hj.2.2)

end Machine

end Sys2Proof
end

