-- ==== Sys2Proof/Laws/State.lean ====
section
/-! SUPPORT. What each register write leaves in each field, and the laws of the pair accessors: true by rfl, for simp. -/

namespace Sys2Proof.Machine.State

variable (s : State) (g : StatePair)

/-! ## clearPulses -/

@[simp] theorem clearPulses_s0 : (s.clearPulses).s0 = s.s0 := rfl
@[simp] theorem clearPulses_s1 : (s.clearPulses).s1 = s.s1 := rfl
@[simp] theorem clearPulses_rndOut : (s.clearPulses).rndOut = s.rndOut := rfl
@[simp] theorem clearPulses_rndValid : (s.clearPulses).rndValid = false := rfl
@[simp] theorem clearPulses_busy : (s.clearPulses).busy = s.busy := rfl
@[simp] theorem clearPulses_jumpDone : (s.clearPulses).jumpDone = false := rfl
@[simp] theorem clearPulses_errIllegal : (s.clearPulses).errIllegal = s.errIllegal := rfl
@[simp] theorem clearPulses_p : (s.clearPulses).p = s.p := rfl
@[simp] theorem clearPulses_k : (s.clearPulses).k = s.k := rfl
@[simp] theorem clearPulses_w0 : (s.clearPulses).w0 = s.w0 := rfl
@[simp] theorem clearPulses_w1 : (s.clearPulses).w1 = s.w1 := rfl
@[simp] theorem clearPulses_t0 : (s.clearPulses).t0 = s.t0 := rfl
@[simp] theorem clearPulses_t1 : (s.clearPulses).t1 = s.t1 := rfl
@[simp] theorem clearPulses_resetSeed : (s.clearPulses).resetSeed = s.resetSeed := rfl
@[simp] theorem clearPulses_pins : (s.clearPulses).pins = s.pins := rfl
@[simp] theorem clearPulses_gen : (s.clearPulses).gen = s.gen := rfl
@[simp] theorem clearPulses_work : (s.clearPulses).work = s.work := rfl
@[simp] theorem clearPulses_acc : (s.clearPulses).acc = s.acc := rfl

/-! ## raiseIllegal -/

@[simp] theorem raiseIllegal_s0 : (s.raiseIllegal).s0 = s.s0 := rfl
@[simp] theorem raiseIllegal_s1 : (s.raiseIllegal).s1 = s.s1 := rfl
@[simp] theorem raiseIllegal_rndOut : (s.raiseIllegal).rndOut = s.rndOut := rfl
@[simp] theorem raiseIllegal_rndValid : (s.raiseIllegal).rndValid = s.rndValid := rfl
@[simp] theorem raiseIllegal_busy : (s.raiseIllegal).busy = s.busy := rfl
@[simp] theorem raiseIllegal_jumpDone : (s.raiseIllegal).jumpDone = s.jumpDone := rfl
@[simp] theorem raiseIllegal_errIllegal : (s.raiseIllegal).errIllegal = true := rfl
@[simp] theorem raiseIllegal_p : (s.raiseIllegal).p = s.p := rfl
@[simp] theorem raiseIllegal_k : (s.raiseIllegal).k = s.k := rfl
@[simp] theorem raiseIllegal_w0 : (s.raiseIllegal).w0 = s.w0 := rfl
@[simp] theorem raiseIllegal_w1 : (s.raiseIllegal).w1 = s.w1 := rfl
@[simp] theorem raiseIllegal_t0 : (s.raiseIllegal).t0 = s.t0 := rfl
@[simp] theorem raiseIllegal_t1 : (s.raiseIllegal).t1 = s.t1 := rfl
@[simp] theorem raiseIllegal_resetSeed : (s.raiseIllegal).resetSeed = s.resetSeed := rfl
@[simp] theorem raiseIllegal_pins : (s.raiseIllegal).pins = s.pins := rfl
@[simp] theorem raiseIllegal_gen : (s.raiseIllegal).gen = s.gen := rfl
@[simp] theorem raiseIllegal_work : (s.raiseIllegal).work = s.work := rfl
@[simp] theorem raiseIllegal_acc : (s.raiseIllegal).acc = s.acc := rfl

/-! ## dropSample -/

@[simp] theorem dropSample_s0 : (s.dropSample).s0 = s.s0 := rfl
@[simp] theorem dropSample_s1 : (s.dropSample).s1 = s.s1 := rfl
@[simp] theorem dropSample_rndOut : (s.dropSample).rndOut = s.rndOut := rfl
@[simp] theorem dropSample_rndValid : (s.dropSample).rndValid = s.rndValid := rfl
@[simp] theorem dropSample_busy : (s.dropSample).busy = s.busy := rfl
@[simp] theorem dropSample_jumpDone : (s.dropSample).jumpDone = s.jumpDone := rfl
@[simp] theorem dropSample_errIllegal : (s.dropSample).errIllegal = s.errIllegal := rfl
@[simp] theorem dropSample_p : (s.dropSample).p = s.p := rfl
@[simp] theorem dropSample_k : (s.dropSample).k = s.k := rfl
@[simp] theorem dropSample_w0 : (s.dropSample).w0 = s.w0 := rfl
@[simp] theorem dropSample_w1 : (s.dropSample).w1 = s.w1 := rfl
@[simp] theorem dropSample_t0 : (s.dropSample).t0 = s.t0 := rfl
@[simp] theorem dropSample_t1 : (s.dropSample).t1 = s.t1 := rfl
@[simp] theorem dropSample_resetSeed : (s.dropSample).resetSeed = s.resetSeed := rfl
@[simp] theorem dropSample_pins : (s.dropSample).pins = s.pins.tail := rfl
@[simp] theorem dropSample_gen : (s.dropSample).gen = s.gen := rfl
@[simp] theorem dropSample_work : (s.dropSample).work = s.work := rfl
@[simp] theorem dropSample_acc : (s.dropSample).acc = s.acc := rfl

/-! ## setGen -/

@[simp] theorem setGen_s0 : (s.setGen g).s0 = g.s0 := rfl
@[simp] theorem setGen_s1 : (s.setGen g).s1 = g.s1 := rfl
@[simp] theorem setGen_rndOut : (s.setGen g).rndOut = s.rndOut := rfl
@[simp] theorem setGen_rndValid : (s.setGen g).rndValid = s.rndValid := rfl
@[simp] theorem setGen_busy : (s.setGen g).busy = s.busy := rfl
@[simp] theorem setGen_jumpDone : (s.setGen g).jumpDone = s.jumpDone := rfl
@[simp] theorem setGen_errIllegal : (s.setGen g).errIllegal = s.errIllegal := rfl
@[simp] theorem setGen_p : (s.setGen g).p = s.p := rfl
@[simp] theorem setGen_k : (s.setGen g).k = s.k := rfl
@[simp] theorem setGen_w0 : (s.setGen g).w0 = s.w0 := rfl
@[simp] theorem setGen_w1 : (s.setGen g).w1 = s.w1 := rfl
@[simp] theorem setGen_t0 : (s.setGen g).t0 = s.t0 := rfl
@[simp] theorem setGen_t1 : (s.setGen g).t1 = s.t1 := rfl
@[simp] theorem setGen_resetSeed : (s.setGen g).resetSeed = s.resetSeed := rfl
@[simp] theorem setGen_pins : (s.setGen g).pins = s.pins := rfl
@[simp] theorem setGen_gen : (s.setGen g).gen = g := rfl
@[simp] theorem setGen_work : (s.setGen g).work = s.work := rfl
@[simp] theorem setGen_acc : (s.setGen g).acc = s.acc := rfl

/-! ## setWork -/

@[simp] theorem setWork_s0 : (s.setWork g).s0 = s.s0 := rfl
@[simp] theorem setWork_s1 : (s.setWork g).s1 = s.s1 := rfl
@[simp] theorem setWork_rndOut : (s.setWork g).rndOut = s.rndOut := rfl
@[simp] theorem setWork_rndValid : (s.setWork g).rndValid = s.rndValid := rfl
@[simp] theorem setWork_busy : (s.setWork g).busy = s.busy := rfl
@[simp] theorem setWork_jumpDone : (s.setWork g).jumpDone = s.jumpDone := rfl
@[simp] theorem setWork_errIllegal : (s.setWork g).errIllegal = s.errIllegal := rfl
@[simp] theorem setWork_p : (s.setWork g).p = s.p := rfl
@[simp] theorem setWork_k : (s.setWork g).k = s.k := rfl
@[simp] theorem setWork_w0 : (s.setWork g).w0 = g.s0 := rfl
@[simp] theorem setWork_w1 : (s.setWork g).w1 = g.s1 := rfl
@[simp] theorem setWork_t0 : (s.setWork g).t0 = s.t0 := rfl
@[simp] theorem setWork_t1 : (s.setWork g).t1 = s.t1 := rfl
@[simp] theorem setWork_resetSeed : (s.setWork g).resetSeed = s.resetSeed := rfl
@[simp] theorem setWork_pins : (s.setWork g).pins = s.pins := rfl
@[simp] theorem setWork_gen : (s.setWork g).gen = s.gen := rfl
@[simp] theorem setWork_work : (s.setWork g).work = g := rfl
@[simp] theorem setWork_acc : (s.setWork g).acc = s.acc := rfl

/-! ## setAcc -/

@[simp] theorem setAcc_s0 : (s.setAcc g).s0 = s.s0 := rfl
@[simp] theorem setAcc_s1 : (s.setAcc g).s1 = s.s1 := rfl
@[simp] theorem setAcc_rndOut : (s.setAcc g).rndOut = s.rndOut := rfl
@[simp] theorem setAcc_rndValid : (s.setAcc g).rndValid = s.rndValid := rfl
@[simp] theorem setAcc_busy : (s.setAcc g).busy = s.busy := rfl
@[simp] theorem setAcc_jumpDone : (s.setAcc g).jumpDone = s.jumpDone := rfl
@[simp] theorem setAcc_errIllegal : (s.setAcc g).errIllegal = s.errIllegal := rfl
@[simp] theorem setAcc_p : (s.setAcc g).p = s.p := rfl
@[simp] theorem setAcc_k : (s.setAcc g).k = s.k := rfl
@[simp] theorem setAcc_w0 : (s.setAcc g).w0 = s.w0 := rfl
@[simp] theorem setAcc_w1 : (s.setAcc g).w1 = s.w1 := rfl
@[simp] theorem setAcc_t0 : (s.setAcc g).t0 = g.s0 := rfl
@[simp] theorem setAcc_t1 : (s.setAcc g).t1 = g.s1 := rfl
@[simp] theorem setAcc_resetSeed : (s.setAcc g).resetSeed = s.resetSeed := rfl
@[simp] theorem setAcc_pins : (s.setAcc g).pins = s.pins := rfl
@[simp] theorem setAcc_gen : (s.setAcc g).gen = s.gen := rfl
@[simp] theorem setAcc_work : (s.setAcc g).work = s.work := rfl
@[simp] theorem setAcc_acc : (s.setAcc g).acc = g := rfl

/-! ## startJump -/

@[simp] theorem startJump_s0 (q : GfPoly) : (s.startJump q).s0 = s.s0 := rfl
@[simp] theorem startJump_s1 (q : GfPoly) : (s.startJump q).s1 = s.s1 := rfl
@[simp] theorem startJump_rndOut (q : GfPoly) : (s.startJump q).rndOut = s.rndOut := rfl
@[simp] theorem startJump_rndValid (q : GfPoly) : (s.startJump q).rndValid = false := rfl
@[simp] theorem startJump_busy (q : GfPoly) : (s.startJump q).busy = true := rfl
@[simp] theorem startJump_jumpDone (q : GfPoly) : (s.startJump q).jumpDone = false := rfl
@[simp] theorem startJump_errIllegal (q : GfPoly) : (s.startJump q).errIllegal = s.errIllegal := rfl
@[simp] theorem startJump_p (q : GfPoly) : (s.startJump q).p = q := rfl
@[simp] theorem startJump_k (q : GfPoly) : (s.startJump q).k = 0 := rfl
@[simp] theorem startJump_w0 (q : GfPoly) : (s.startJump q).w0 = s.s0 := rfl
@[simp] theorem startJump_w1 (q : GfPoly) : (s.startJump q).w1 = s.s1 := rfl
@[simp] theorem startJump_t0 (q : GfPoly) : (s.startJump q).t0 = 0 := rfl
@[simp] theorem startJump_t1 (q : GfPoly) : (s.startJump q).t1 = 0 := rfl
@[simp] theorem startJump_resetSeed (q : GfPoly) : (s.startJump q).resetSeed = s.resetSeed := rfl
@[simp] theorem startJump_pins (q : GfPoly) : (s.startJump q).pins = s.pins := rfl
@[simp] theorem startJump_gen (q : GfPoly) : (s.startJump q).gen = s.gen := rfl
@[simp] theorem startJump_work (q : GfPoly) : (s.startJump q).work = s.gen := rfl
@[simp] theorem startJump_acc (q : GfPoly) : (s.startJump q).acc = .zero := rfl

/-! ## engineStep: the fields that do not depend on the commit -/

@[simp] theorem engineStep_rndOut : s.engineStep.rndOut = s.rndOut := by
  unfold engineStep; split <;> rfl
@[simp] theorem engineStep_rndValid : s.engineStep.rndValid = false := by
  unfold engineStep; split <;> rfl
@[simp] theorem engineStep_errIllegal : s.engineStep.errIllegal = s.errIllegal := by
  unfold engineStep; split <;> rfl
@[simp] theorem engineStep_p : s.engineStep.p = s.p := by
  unfold engineStep; split <;> rfl
@[simp] theorem engineStep_resetSeed : s.engineStep.resetSeed = s.resetSeed := by
  unfold engineStep; split <;> rfl
@[simp] theorem engineStep_pins : s.engineStep.pins = s.pins := by
  unfold engineStep; split <;> rfl
@[simp] theorem engineStep_work : s.engineStep.work = stepState s.work := by
  unfold engineStep; split <;> rfl
@[simp] theorem engineStep_acc : s.engineStep.acc = foldBit (polyBit s.p s.k.toNat) s.acc s.work := by
  unfold engineStep; split <;> rfl

/-! ## The pair accessors and reset -/

theorem gen_ext {s t : State} (h0 : s.s0 = t.s0) (h1 : s.s1 = t.s1) : s.gen = t.gen := by
  simp [gen, h0, h1]

theorem zeroState_iff : s.zeroState = true ↔ s.gen = .zero := by
  simp [zeroState, gen]

@[simp] theorem resetFor_gen (seed : Word) (pins : List PortSample) :
    (State.resetFor seed pins).gen = initState seed := rfl

@[simp] theorem resetFor_resetSeed (seed : Word) (pins : List PortSample) :
    (State.resetFor seed pins).resetSeed = seed := rfl

@[simp] theorem resetFor_pins (seed : Word) (pins : List PortSample) :
    (State.resetFor seed pins).pins = pins := rfl

@[simp] theorem dropSample_sample_cons (x : PortSample) (xs : List PortSample) :
    ({ s with pins := x :: xs } : State).sample = x := rfl

@[simp] theorem dropSample_cons (x : PortSample) (xs : List PortSample) :
    ({ s with pins := x :: xs } : State).dropSample = { s with pins := xs } := rfl

end Sys2Proof.Machine.State
end

