-- ==== Sys2Proof/Laws/Ops.lean ====
section
/-! SUPPORT. One lemma per shared operation that says all it does: the pure functions, the engine step, and the meaning
of a jump's edges as the jump loop. -/

namespace Sys2Proof.Machine

/-! ## Pairs under XOR -/

@[simp] theorem xorPair_zero (a : StatePair) : xorPair a .zero = a := by
  simp [xorPair]

@[simp] theorem zero_xorPair (a : StatePair) : xorPair .zero a = a := by
  simp [xorPair]

@[simp] theorem xorPair_self (a : StatePair) : xorPair a a = .zero := by
  simp [xorPair]

theorem xorPair_comm (a b : StatePair) : xorPair a b = xorPair b a := by
  simp [xorPair, BitVec.xor_comm]

theorem xorPair_assoc (a b c : StatePair) : xorPair (xorPair a b) c = xorPair a (xorPair b c) := by
  simp [xorPair, BitVec.xor_assoc]

/-! ## The jump loop -/

@[simp] theorem foldBit_true (a w : StatePair) : foldBit true a w = xorPair a w := rfl

@[simp] theorem foldBit_false (a w : StatePair) : foldBit false a w = a := rfl

theorem jumpLoop_zero (p : GfPoly) (s : StatePair) : jumpLoop p s 0 = ⟨.zero, s⟩ := rfl

theorem jumpLoop_succ (p : GfPoly) (s : StatePair) (n : Nat) :
    jumpLoop p s (n + 1) = jumpIteration p n (jumpLoop p s n) := rfl

/-- The working copy after n iterations is the state after n steps. -/
theorem jumpLoop_work (p : GfPoly) (s : StatePair) (n : Nat) : (jumpLoop p s n).work = stepState^[n] s := by
  induction n with
  | zero => rfl
  | succ n ih => rw [jumpLoop_succ, Function.iterate_succ_apply', ← ih]; rfl

/-- Jump is the accumulator after the loop's 128 iterations (R63). -/
theorem jumpState_eq (s : StatePair) (p : GfPoly) : jumpState s p = (jumpLoop p s 128).acc := by
  rw [jumpState]

/-- The accumulator after one more iteration folds in the state after n steps. -/
theorem jumpLoop_acc_succ (p : GfPoly) (s : StatePair) (n : Nat) :
    (jumpLoop p s (n + 1)).acc = foldBit (polyBit p n) (jumpLoop p s n).acc (stepState^[n] s) := by
  rw [jumpLoop_succ, jumpIteration, jumpLoop_work]

/-- The product modulo C(x) is its loop's sum after 128 iterations. -/
theorem polyMul_eq (a b : GfPoly) : polyMul a b = (polyMulLoop a b 128).1 := by
  rw [polyMul]

/-! ## The engine step -/

/-- One engine step is one iteration of the jump loop on the engine's registers. -/
theorem engineStep_loop (s : State) :
    LoopState.mk s.engineStep.acc s.engineStep.work = jumpIteration s.p s.k.toNat ⟨s.acc, s.work⟩ := by
  simp [jumpIteration]

/-- The engine step at k = 127, the commit edge. -/
theorem engineStep_commit {s : State} (h : s.k = 127#7) :
    s.engineStep =
      { ((s.clearPulses.setWork (stepState s.work)).setAcc (foldBit (polyBit s.p s.k.toNat) s.acc s.work)).setGen
          (foldBit (polyBit s.p s.k.toNat) s.acc s.work) with busy := false, jumpDone := true, k := 0 } := by
  simp only [State.engineStep, if_pos h]

/-- The engine step at any other k. -/
theorem engineStep_continue {s : State} (h : s.k ≠ 127#7) :
    s.engineStep =
      { (s.clearPulses.setWork (stepState s.work)).setAcc (foldBit (polyBit s.p s.k.toNat) s.acc s.work) with
          k := s.k + 1 } := by
  simp only [State.engineStep, if_neg h]

/-- k counts up without wrapping until the commit. -/
theorem k_succ_toNat {k : BitVec 7} (h : k ≠ 127#7) : (k + 1).toNat = k.toNat + 1 := by
  bv_omega

end Sys2Proof.Machine
end

