-- ==== Sys2Proof/Laws/PerInstr.lean ====
section
/-! SUPPORT. Statements for all commands, one lemma per constructor (LAWS.json). -/

namespace Sys2Proof.Laws

namespace OpFieldOfEncoding

/-- The op field of the encoded command selects the command's own opcode (R43, R45). -/
def Statement (i : Instr) : Prop :=
  (CommandFields.unpack (encode i)).op = i.opcode.toBits ∧ Opcode.ofBits i.opcode.toBits = i.opcode

theorem of_encode (i : Instr) : Statement i :=
  ⟨congrArg CommandFields.op (unpack_pack (encodeFields i)), ofBits_toBits _⟩

theorem illegal : Statement .illegal := of_encode _
theorem init (seed : Word) : Statement (.init seed) := of_encode _
theorem next : Statement .next := of_encode _
theorem jump (p0 p1 : Word) : Statement (.jump p0 p1) := of_encode _
theorem jump32 : Statement .jump32 := of_encode _
theorem jump64 : Statement .jump64 := of_encode _
theorem jump96 : Statement .jump96 := of_encode _
theorem load (s0 s1 : Word) : Statement (.load s0 s1) := of_encode _

end OpFieldOfEncoding

end Sys2Proof.Laws
end

