-- ==== Sys2Proof/Laws/Step.lean ====
section
/-! SUPPORT. What one edge can do, said once: the proofs cite these lemmas and do not unfold tick. -/

namespace Sys2Proof.Machine

/-- If an edge answers a next state, it was a reset, an engine step, an accepted command or an idle edge, with the
conditions of each (R84). -/
theorem tick_next_cases {x : PortSample} {s t : State} (h : tick x s = .next t) :
    (x.rst = some true ∧ x.cmdValid.isSome = true ∧ t = s.resetEdge) ∨
    (NoReset x ∧ s.busy = true ∧ t = s.engineStep) ∨
    (s.busy = false ∧ ∃ i, Presents x i ∧ exec i s = .next t) ∨
    (x.rst = some false ∧ x.cmdValid = some false ∧ s.busy = false ∧ t = s.idleEdge) := by
  unfold tick at h
  split at h
  · cases h
  · cases h
  · next _ _ hr hv => exact .inl ⟨hr, by simp [hv], (Host.Outcome.next.inj h).symm⟩
  · next _ valid hr hv =>
    split at h
    · next hb => exact .inr (.inl ⟨⟨hr, by simp [hv]⟩, hb, (Host.Outcome.next.inj h).symm⟩)
    · next hb =>
      have hb : s.busy = false := by simpa using hb
      split at h
      · next hval =>
        split at h
        · next i hd => exact .inr (.inr (.inl ⟨hb, i, ⟨hr, by simp [hv, hval], hd⟩, h⟩))
        · cases h
      · next hval =>
        exact .inr (.inr (.inr ⟨hr, by simp [hv, hval], hb, (Host.Outcome.next.inj h).symm⟩))

/-- Every meaning answers a next state that is one of four writes: the pulses cleared with a new state, with a new
state and an output, with the error bit, or a started jump. -/
theorem exec_next_cases (i : Instr) (s : State) :
    (startsJump i = false ∧ i ≠ .next ∧ i ≠ .illegal ∧ exec i s = .next (s.clearPulses.setGen (genAfter i s.gen))) ∨
    (i = .next ∧ exec i s =
      .next { s.clearPulses.setGen (stepState s.gen) with rndOut := stepResult s.gen, rndValid := true }) ∨
    (i = .illegal ∧ exec i s = .next s.clearPulses.raiseIllegal) ∨
    (startsJump i = true ∧ ∃ p, genAfter i s.gen = jumpState s.gen p ∧ exec i s = .next (s.startJump p)) := by
  cases i with
  | illegal => exact .inr (.inr (.inl ⟨rfl, rfl⟩))
  | init seed => exact .inl ⟨rfl, nofun, nofun, rfl⟩
  | next => exact .inr (.inl ⟨rfl, rfl⟩)
  | jump p0 p1 => exact .inr (.inr (.inr ⟨rfl, polyOperand p0 p1, rfl, rfl⟩))
  | jump32 => exact .inr (.inr (.inr ⟨rfl, j32, rfl, rfl⟩))
  | jump64 => exact .inr (.inr (.inr ⟨rfl, j64, rfl, rfl⟩))
  | jump96 => exact .inr (.inr (.inr ⟨rfl, j96, rfl, rfl⟩))
  | load d0 d1 => exact .inl ⟨rfl, nofun, nofun, rfl⟩

/-- A run that answers a state after n + 1 edges starts with a step. -/
theorem core_run_succ_iff (M : Host.Core) (n : Nat) (s u : M.State) :
    M.run (n + 1) s = .next u ↔ ∃ t, M.step s = .next t ∧ M.run n t = .next u := by
  show (match M.step s with
    | .next s' => M.run n s'
    | .fault r => .fault r
    | .refused r => .refused r) = .next u ↔ _
  cases M.step s <;> simp

@[simp] theorem runsTo_zero_iff (s t : State) : RunsTo 0 s t ↔ s = t :=
  ⟨fun h => Host.Outcome.next.inj h, fun h => congrArg Host.Outcome.next h⟩

theorem runsTo_succ_iff (n : Nat) (s u : State) : RunsTo (n + 1) s u ↔ ∃ t, step s = .next t ∧ RunsTo n t u :=
  core_run_succ_iff Sys2Proof.core n s u

/-- A run of one edge is a step. -/
@[simp] theorem runsTo_one_iff (s t : State) : RunsTo 1 s t ↔ step s = .next t := by
  simp [runsTo_succ_iff]

/-- A run of n + m edges is a run of n, then of m. -/
theorem RunsTo.trans {n m : Nat} {s t u : State} (h : RunsTo n s t) (h' : RunsTo m t u) : RunsTo (n + m) s u := by
  induction n generalizing s with
  | zero => rw [runsTo_zero_iff] at h; subst h; rwa [Nat.zero_add]
  | succ n ih =>
    obtain ⟨v, hv, hvt⟩ := (runsTo_succ_iff n s t).mp h
    rw [Nat.succ_add]
    exact (runsTo_succ_iff _ _ _).mpr ⟨v, hv, ih hvt⟩

/-- A step is deterministic, so a run of n edges has one end. -/
theorem RunsTo.unique {n : Nat} {s t u : State} (h : RunsTo n s t) (h' : RunsTo n s u) : t = u :=
  Host.Outcome.next.inj (h.symm.trans h')

/-! ## The commands a run accepts -/

theorem accepted_eq_some_iff (s : State) (i : Instr) : s.accepted = some i ↔ s.AcceptsNext i := by
  unfold State.accepted State.AcceptsNext Presents
  cases decodePorts s.sample <;> simp [and_assoc]
  tauto

theorem accepted_eq_none_iff (s : State) : s.accepted = none ↔ ∀ i, ¬ s.AcceptsNext i := by
  simp only [Option.eq_none_iff_forall_ne_some, ne_eq, accepted_eq_some_iff]

@[simp] theorem acceptedIn_zero (s : State) : acceptedIn 0 s = [] := rfl

/-- The commands accepted from a step on: the one at its edge, then those after. -/
theorem acceptedIn_succ {s t : State} (h : step s = .next t) (n : Nat) :
    acceptedIn (n + 1) s = s.accepted.toList ++ acceptedIn n t := by
  simp only [acceptedIn, h]

/-- The commands accepted in n + m edges are those of the first n, then those of the m after. -/
theorem acceptedIn_add {n m : Nat} {s t : State} (h : RunsTo n s t) :
    acceptedIn (n + m) s = acceptedIn n s ++ acceptedIn m t := by
  induction n generalizing s with
  | zero => rw [runsTo_zero_iff] at h; subst h; simp
  | succ n ih =>
    obtain ⟨v, hv, hvt⟩ := (runsTo_succ_iff n s t).mp h
    rw [Nat.succ_add, acceptedIn_succ hv, acceptedIn_succ hv, ih hvt, List.append_assoc]

/-- A run's end is unique: the first edge of R98 is one edge, and its state is one state. -/
theorem RunEnds.unique {prog : List Instr} {n m : Nat} {s t u : State} (h : RunEnds prog n s t)
    (h' : RunEnds prog m s u) : n = m ∧ t = u := by
  rcases Nat.lt_trichotomy n m with hlt | rfl | hlt
  · exact absurd ⟨h.accepted, h.portFree⟩ (h'.first n t hlt h.runs)
  · exact ⟨rfl, h.runs.unique h'.runs⟩
  · exact absurd ⟨h'.accepted, h'.portFree⟩ (h.first m u hlt h'.runs)

end Sys2Proof.Machine
end

