-- ==== Sys2Proof/Tests/Slice0.lean ====
section
/-! SUPPORT. The model's own tests. Expected values are those of spec/95_test_vectors.md (section in each comment) or
words written out by hand from R43 and R45. Then, for every statement with hypotheses, states that meet them. -/

open Sys2Proof Sys2Proof.Machine

namespace Sys2Proof.Tests

/-- A field of the next state, if there is one. -/
def onNext {α : Type} (o : Host.Outcome State Fault Refusal) (f : State → α) : Option α :=
  match o with
  | .next s => some (f s)
  | .fault _ => none
  | .refused _ => none

/-- A block in state g after reset, which the host drives with the given samples. -/
def block (g : StatePair) (pins : List PortSample) : State := { State.reset.setGen g with pins := pins }

/-- A sample with rst = 1. -/
def resetSample : PortSample := { PortSample.idle with rst := some true }

/-- A block that runs JUMP 0x2, 0x0 from (1, 0) and has processed k bits (95 section 2.8). -/
def running (k : BitVec 7) (pins : List PortSample) : State :=
  let e := jumpLoop 2 ⟨1, 0⟩ k.toNat
  { ((block ⟨1, 0⟩ pins).setWork e.work).setAcc e.acc with busy := true, p := 2, k := k }

/-! ## Well-formedness: a term that each check refuses -/

theorem test_wellFormed_op_refused : (RawCommand.mk 8 0 0).opInRange = false ∧ (RawCommand.mk 7 0 0).wellFormed = true := by decide
theorem test_wellFormed_data0_refused : (RawCommand.mk 1 (2 ^ 64) 0).data0InRange = false := by decide
theorem test_wellFormed_data1_refused : (RawCommand.mk 7 0 (2 ^ 64)).data1InRange = false := by decide
theorem test_wellFormed_whole :
    (RawCommand.mk 8 0 0).wellFormed = false ∧ (RawCommand.mk 1 (2 ^ 64) 0).wellFormed = false ∧
    (RawCommand.mk 7 0 (2 ^ 64)).wellFormed = false ∧ (RawCommand.mk 7 (2 ^ 64 - 1) (2 ^ 64 - 1)).wellFormed = true := by
  decide
theorem test_controlDriven_refused :
    ({ PortSample.idle with rst := none } : PortSample).controlDriven = false ∧
    ({ PortSample.idle with cmdValid := none } : PortSample).controlDriven = false ∧ PortSample.idle.wellDriven = true ∧
    ({ presentInstr (.init 1) with cmdData0 := none } : PortSample).wellDriven = false ∧
    ({ presentInstr (.init 1) with cmdData1 := none } : PortSample).wellDriven = true := by decide
theorem test_decodeRaw_rejects_by_name :
    decodeRaw ⟨8, 0, 0⟩ = .error .cmdOp ∧ decodeRaw ⟨1, 2 ^ 64, 0⟩ = .error .cmdData0 ∧
    decodeRaw ⟨7, 0, 2 ^ 64⟩ = .error .cmdData1 ∧ decodeRaw ⟨7, 1, 0⟩ = .ok (.load 1 0) := ⟨rfl, rfl, rfl, rfl⟩
theorem test_decodePorts_rejects_by_name :
    decodePorts .idle = .error .cmdOp ∧
    decodePorts { presentInstr (.jump 1 2) with cmdData0 := none } = .error .cmdData0 ∧
    decodePorts { presentInstr (.jump 1 2) with cmdData1 := none } = .error .cmdData1 := ⟨rfl, rfl, rfl⟩

/-! ## Decoding: every command's word written out from R43 and R45 -/

/-- op 000, both operands all ones. -/
theorem test_decode_illegal : decodeWord 0x7FFFFFFFFFFFFFFFFFFFFFFFFFFFFFFF8#131 = .illegal := by decide
/-- INIT 401 (95 P1), and a seed with its top bit (bit 66 of the word) and an ignored data1. -/
theorem test_decode_init :
    decodeWord 0xC89#131 = .init 401 ∧ decodeWord 0b11000000000000000000000000000000000000000000000000000000000000000001#131 =
      .init 0x8000000000000000 := by decide
theorem test_decode_next : decodeWord 0b010#131 = .next ∧ decodeWord 0x7FFFFFFFFFFFFFFFFFFFFFFFFFFFFFFFA#131 = .next := by
  decide
/-- JUMP 0x2, 0x0 (95 P3), and p1 = 1, bit 67 of the word. -/
theorem test_decode_jump : decodeWord 0x13#131 = .jump 2 0 ∧ decodeWord 0x80000000000000003#131 = .jump 0 1 := by decide
theorem test_decode_jump32 : decodeWord 0x7FFFFFFFFFFFFFFFFFFFFFFFFFFFFFFFC#131 = .jump32 := by decide
theorem test_decode_jump64 : decodeWord 0b101#131 = .jump64 := by decide
theorem test_decode_jump96 : decodeWord 0b110#131 = .jump96 := by decide
/-- LOAD (95 P2). -/
theorem test_decode_load :
    decodeWord 0x0D047708C25D36990A02BDBF7BB3C0A7F#131 = .load 0x14057B7EF767814F 0x1A08EE1184BA6D32 := by decide
/-- The table's numbering: a bit beyond the command word is refused; one above nbits is not looked at. -/
theorem test_decodeTableWord :
    decodeTableWord 136 0x13 = some (.jump 2 0) ∧ decodeTableWord 136 (2 ^ 131) = none ∧
    decodeTableWord 8 0x113 = some (.jump 2 0) := by decide
theorem test_encode_load :
    (encode (.load 0x14057B7EF767814F 0x1A08EE1184BA6D32)).toNat = 0x0D047708C25D36990A02BDBF7BB3C0A7F := by decide

/-! ## Commands: 95 sections 2.1 to 2.6 -/

theorem test_init_401 :
    onNext (exec (.init 401) (block ⟨1, 0⟩ [])) State.gen = some ⟨0x6C64F673ED93B6CC, 0x97C703D5F6C9D72B⟩ := by decide
theorem test_init_first_word_zero : initState 0x9995B5B621535015 = ⟨0, 0x14057B7EF767814F⟩ := by decide
theorem test_load_zero :
    onNext (exec (.load 0 0) (block ⟨1, 0⟩ [])) (fun t => (t.zeroState, t.errIllegal)) = some (true, false) := by decide
theorem test_next_overflow :
    onNext (exec .next (block ⟨0xFFFFFFFFFFFFFFFF, 0xFFFFFFFFFFFFFFFF⟩ [])) (fun t => (t.rndOut, t.gen)) =
      some (0xFFFFFFFDDFFFFFFE, ⟨0, 0x1FF⟩) := by decide
theorem test_next_kat :
    onNext (exec .next (block ⟨0x6C64F673ED93B6CC, 0x97C703D5F6C9D72B⟩ [])) (fun t => (t.rndOut, t.gen, t.rndValid)) =
      some (0x8D4E3629D245305F, ⟨0xD2BDCC969F6B56B6, 0xE2635D9E7E3DE0CC⟩, true) := by decide
theorem test_jump_accept :
    onNext (exec (.jump 2 1) (block ⟨1, 0⟩ [])) (fun t => (t.p, t.work, t.acc, t.busy, t.gen)) =
      some (0x00000000000000010000000000000002#128, ⟨1, 0⟩, ⟨0, 0⟩, true, ⟨1, 0⟩) := by decide
theorem test_jump_last_bit_of_p0 :
    jumpState ⟨0x8B38637963B4B7A0, 0x74A5A5F4B505E908⟩ (polyOperand 0x8000000000000000 0) =
      ⟨0xDB03E8F3A7043A3D, 0x95763F6BAD344286⟩ := by decide +kernel
theorem test_jump_first_bit_of_p1 :
    jumpState ⟨0x8B38637963B4B7A0, 0x74A5A5F4B505E908⟩ (polyOperand 0 1) =
      ⟨0xAEA560A375AAFDD0, 0x377D3FA9CF81363D⟩ := by decide +kernel
theorem test_jump32_kat :
    jumpState ⟨0x8B38637963B4B7A0, 0x74A5A5F4B505E908⟩ j32 = ⟨0xA20E518250A6FF34, 0x6F80EE02ACF8EBC2⟩ := by
  decide +kernel
theorem test_jump64_kat :
    jumpState ⟨0xA20E518250A6FF34, 0x6F80EE02ACF8EBC2⟩ j64 = ⟨0x38CB1C2C7821B08F, 0xD518DCC9FA1C92BA⟩ := by
  decide +kernel
theorem test_jump96_kat :
    jumpState ⟨0x38CB1C2C7821B08F, 0xD518DCC9FA1C92BA⟩ j96 = ⟨0x77AF4FDC1B861F98, 0x16485EFAC22AE75B⟩ := by
  decide +kernel
theorem test_illegal :
    onNext (exec .illegal (block ⟨1, 0⟩ [])) (fun t => (t.errIllegal, t.gen, t.busy)) = some (true, ⟨1, 0⟩, false) := by
  decide

/-! ## Edges: 95 sections 2.7 and 2.8 -/

/-- Cycle 6 to cycle 7: bit 1 of P = 2 folds T(s) into t. -/
theorem test_engine_folds_bit_1 :
    onNext (step { block ⟨1, 1⟩ [] with busy := true, p := 2, k := 1, w0 := 0x20000001, w1 := 0x201 })
        (fun t => (t.k, t.acc, t.work, t.gen)) =
      some (2, ⟨0x20000001, 0x201⟩, ⟨0x4000000001, 0x20040201⟩, ⟨1, 1⟩) := by decide
/-- Cycle 132 to cycle 133: the commit. -/
theorem test_engine_commits :
    onNext (step { block ⟨1, 1⟩ [] with busy := true, p := 2, k := 127, t0 := 0x20000001, t1 := 0x201,
                                        w0 := 0x5C72B54BEC0A4FB2, w1 := 0xFE19EC5F08081114 })
        (fun t => (t.k, t.gen, t.work, t.busy, t.jumpDone)) =
      some (0, ⟨0x20000001, 0x201⟩, ⟨0xBD73B76973C97239, 0x6FAA0B5BFC2867B2⟩, false, true) := by decide
theorem test_reset_aborts_jump :
    onNext (step (running 127 [resetSample])) (fun t => (t.gen, t.busy, t.jumpDone)) =
      some (⟨0x14057B7EF767814F, 0x1A08EE1184BA6D32⟩, false, false) := by decide
/-- RESET_SEED = 401 (95 section 2.7). -/
theorem test_reset_other_build :
    onNext (step { running 5 [resetSample] with resetSeed := 401 }) State.gen =
      some ⟨0x6C64F673ED93B6CC, 0x97C703D5F6C9D72B⟩ := by decide
theorem test_busy_ignores_command :
    onNext (step (running 0 [presentInstr (.load 5 6)])) (fun t => (t.gen, t.k)) = some (⟨1, 0⟩, 1) := by decide
theorem test_step_runs_first_command :
    onNext (step (State.reset.withFetchWord 136 0xC89)) State.gen = some ⟨0x6C64F673ED93B6CC, 0x97C703D5F6C9D72B⟩ := by
  decide
theorem test_unknown_level_refused :
    step (block ⟨1, 0⟩ [{ presentInstr (.init 1) with cmdData0 := none }]) = .refused (.unknownLevel .cmdData0) ∧
    step (block ⟨1, 0⟩ [{ resetSample with cmdValid := none }]) = .refused (.unknownLevel .cmdValid) := ⟨rfl, rfl⟩

/-! ## Polynomials and assembler -/

/-- x^1000 mod C (95 section 2.4). -/
theorem test_jumpN_1000 : expandPseudo (.jumpN 1000) = .jump 0x7142263B7455A8C1 0xBB454D5F3938D5CA := by decide +kernel
/-- x^128 mod C (95 section 2.4). -/
theorem test_jumpN_128 : polyXPow 128 = 0x0005052435243717_12032010A0F06501#128 := by decide +kernel
/-- `LOAD 0x1, 0x0  ; P3` -/
theorem test_assemble_load :
    assembleLine ['L', 'O', 'A', 'D', ' ', '0', 'x', '1', ',', ' ', '0', 'x', '0', ' ', ' ', ';', ' ', 'P', '3'] =
      .ok (some (.command (.load 1 0))) := by decide
/-- `INIT 401` and `STEP` on two lines. -/
theorem test_assemble_text :
    assemble ['I', 'N', 'I', 'T', ' ', '4', '0', '1', '\n', 'S', 'T', 'E', 'P'] = .ok [.init 401, .jump 2 0] := by decide
/-- `INIT 0x10000000000000000`: out of range. -/
theorem test_assemble_out_of_range :
    assembleLine (['I', 'N', 'I', 'T', ' ', '0', 'x', '1'] ++ List.replicate 16 '0') = .error .literalOutOfRange := by
  decide
theorem test_sourceLine_assembles :
    assembleLine (sourceLine (.jump 0x40165CBAE9CA6DEB 0x688E6BFC19485AB1)) =
      .ok (some (.command (.jump 0x40165CBAE9CA6DEB 0x688E6BFC19485AB1))) := by decide +kernel
/-- `0x000000000000000000000000000000C89` (95 P1). -/
theorem test_listingWord : listingWord (.init 401) = ['0', 'x'] ++ List.replicate 30 '0' ++ ['C', '8', '9'] := by
  decide +kernel

/-- The listing of JUMP32 with its braces: op=100, both operands 0 (R48). -/
theorem test_listingLine :
    listingLine .jump32 =
      [Char.ofNat 123, 'o', 'p', '=', '1', '0', '0', ',', ' ', 'd', 'a', 't', 'a', '0', '=', '0', 'x'] ++
        List.replicate 16 '0' ++ [',', ' ', 'd', 'a', 't', 'a', '1', '=', '0', 'x'] ++ List.replicate 16 '0' ++
        [Char.ofNat 125] := by decide +kernel

/-! ## States that meet the statements' hypotheses -/

/-- A block that is not busy, to which a host presents one command, and is idle after it. -/
def presented (i : Instr) : State := block ⟨1, 0⟩ [presentInstr i]

theorem presented_accepts (i : Instr) (h : decodePorts (presentInstr i) = .ok i) : (presented i).AcceptsNext i :=
  ⟨⟨rfl, rfl, h⟩, rfl⟩

theorem noReset_idle : NoReset .idle := ⟨rfl, rfl⟩

theorem presented_undisturbed (i : Instr) : (presented i).UndisturbedAfter := by
  intro m h1 _
  obtain ⟨n, rfl⟩ : ∃ n, m = n + 1 := ⟨m - 1, by omega⟩
  exact noReset_idle

/-- The engine invariant holds in a running block at every k. -/
theorem running_inv (k : BitVec 7) (pins : List PortSample) : (running k pins).Inv :=
  ⟨fun _ => rfl, fun _ => ⟨rfl, rfl⟩, nofun⟩

theorem block_inv (g : StatePair) (pins : List PortSample) : (block g pins).Inv := ⟨nofun, nofun, nofun⟩

theorem wit_DecodeEncodeRoundTrip : (Instr.load 0 0xFFFFFFFFFFFFFFFF).wellFormed = true := rfl

/-- Samples that differ in ignored operands alone, one of them at an unknown level: NEXT, INIT, JUMP. -/
theorem wit_OperandUse :
    tick { presentInstr .next with cmdData0 := none, cmdData1 := some 5 } (block ⟨1, 0⟩ []) =
      tick (presentInstr .next) (block ⟨1, 0⟩ []) ∧
    tick { presentInstr (.init 7) with cmdData1 := none } (block ⟨1, 0⟩ []) =
      tick (presentInstr (.init 7)) (block ⟨1, 0⟩ []) ∧
    (presentInstr (.jump 1 2)).cmdOp = some 3 := ⟨rfl, rfl, rfl⟩

theorem wit_StepRunsPresentedCommand :
    (presented .next).AcceptsNext .next ∧ decodeTableWord 136 0xF = some (.load 1 0) :=
  ⟨presented_accepts _ rfl, by decide⟩

theorem wit_ResetValues : ∃ s : State, s = State.resetFor 401 [] := ⟨_, rfl⟩

/-- Two reset edges in a row, the first during a jump. -/
theorem wit_ResetEdge :
    ∃ t u, (running 127 [resetSample, resetSample]).ResetsNext ∧
      step (running 127 [resetSample, resetSample]) = .next t ∧ t.ResetsNext ∧ step t = .next u :=
  ⟨_, _, ⟨rfl, rfl⟩, rfl, ⟨rfl, rfl⟩, rfl⟩

/-- A jump accepted, then reset at the edges m = 0 and m = 1 after. -/
theorem wit_ResetAbortsJump :
    (∃ u, RunsTo (0 + 1) (block ⟨1, 0⟩ [presentInstr .jump32, resetSample]) u ∧ u.ResetsNext) ∧
    (∃ u, RunsTo (1 + 1) (block ⟨1, 0⟩ [presentInstr .jump32, .idle, resetSample]) u ∧ u.ResetsNext) ∧
    (block ⟨1, 0⟩ [presentInstr .jump32, .idle, resetSample]).AcceptsNext .jump32 ∧ startsJump .jump32 = true ∧
    NoReset ([presentInstr .jump32, .idle, resetSample].getD 1 .idle) :=
  ⟨⟨_, (runsTo_succ_iff _ _ _).mpr ⟨_, rfl, (runsTo_zero_iff _ _).mpr rfl⟩, rfl, rfl⟩,
   ⟨_, (runsTo_succ_iff _ _ _).mpr ⟨_, rfl, (runsTo_succ_iff _ _ _).mpr ⟨_, rfl, (runsTo_zero_iff _ _).mpr rfl⟩⟩, rfl, rfl⟩,
   ⟨⟨rfl, rfl, rfl⟩, rfl⟩, rfl, noReset_idle⟩

/-- INIT accepted, and INIT presented while a jump runs. -/
theorem wit_InitCommand :
    (presented (.init 0)).AcceptsNext (.init 0) ∧ (∃ t, exec (.init 0) (presented (.init 0)) = .next t) ∧
    Presents (running 3 [presentInstr (.init 0)]).sample (.init 0) ∧ (running 3 []).busy = true :=
  ⟨presented_accepts _ rfl, ⟨_, rfl⟩, ⟨rfl, rfl, rfl⟩, rfl⟩

theorem wit_LoadCommand :
    (presented (.load 0 0)).AcceptsNext (.load 0 0) ∧ ∃ t, exec (.load 0 0) (presented (.load 0 0)) = .next t :=
  ⟨presented_accepts _ rfl, _, rfl⟩

/-- An all-zero block at an idle edge. -/
theorem wit_ZeroStateStays :
    ∃ t, (block .zero []).Inv ∧ (block .zero []).gen = .zero ∧ step (block .zero []) = .next t ∧
      ¬ (block .zero []).ResetsNext ∧ ∀ i, ¬ (block .zero []).AcceptsNext i :=
  ⟨_, block_inv _ _, rfl, rfl, fun h => absurd h.1 (by decide),
   fun _ h => absurd h.1.2.1 (by decide)⟩

/-- A non-zero state, and step counts at both ends of the period. -/
theorem wit_FullPeriod : (⟨1, 0⟩ : StatePair) ≠ .zero ∧ 0 < 1 ∧ 2 ^ 128 - 2 < 2 ^ 128 - 1 := by
  refine ⟨by decide, by decide, by norm_num⟩

theorem wit_NextCommand :
    (presented .next).AcceptsNext .next ∧ ∃ t, exec .next (presented .next) = .next t :=
  ⟨presented_accepts _ rfl, _, rfl⟩

/-- Two blocks that held different states and get the same seed. -/
theorem wit_OutputsDetermined :
    ∃ s', (presented (.init 9)).AcceptsNext (.init 9) ∧ (block ⟨5, 6⟩ [presentInstr (.init 9)]).busy = false ∧
      RunsTo (0 + 1) (presented (.init 9)) s' :=
  ⟨_, presented_accepts _ rfl, rfl, (runsTo_succ_iff _ _ _).mpr ⟨_, rfl, (runsTo_zero_iff _ _).mpr rfl⟩⟩

theorem wit_JumpZeroOnlyByZeroPolynomial : (⟨0, 1⟩ : StatePair) ≠ .zero := by decide

theorem wit_JumpCommand :
    (presented (.jump 2 0)).AcceptsNext (.jump 2 0) ∧ (presented (.jump 2 0)).UndisturbedAfter :=
  ⟨presented_accepts _ rfl, presented_undisturbed _⟩

/-- The first engine edge and the commit edge. -/
theorem wit_EngineStepEdge :
    NoReset (running 0 []).sample ∧ (running 0 []).busy = true ∧ (running 0 []).k.toNat = 0 ∧
    NoReset (running 127 [presentInstr .next]).sample ∧ (running 127 []).busy = true ∧ (running 127 []).k.toNat = 127 :=
  ⟨noReset_idle, rfl, rfl, ⟨rfl, rfl⟩, rfl, rfl⟩

/-- Every jump accepted and undisturbed; and an edge that is no commit, one bit before it. -/
theorem wit_JumpTimeline :
    (∀ i ∈ [Instr.jump 0 0, .jump32, .jump64, .jump96],
      (presented i).AcceptsNext i ∧ startsJump i = true ∧ (presented i).UndisturbedAfter) ∧
    (∃ t, step (running 126 []) = .next t) ∧ ¬ (running 126 []).CommitsNext := by
  refine ⟨?_, ⟨_, rfl⟩, fun h => absurd h.2.2 (by decide)⟩
  intro i hi
  simp only [List.mem_cons, List.not_mem_nil, or_false] at hi
  rcases hi with rfl | rfl | rfl | rfl <;> exact ⟨presented_accepts _ rfl, rfl, presented_undisturbed _⟩

/-- A running engine at the first, the last and a middle bit. -/
theorem wit_EngineInvariantKept :
    ∀ k ∈ [0#7, 64#7, 127#7], (running k []).Inv ∧ ∃ t, step (running k []) = .next t :=
  fun k _ => ⟨running_inv k [], _, rfl⟩

theorem wit_NamedJumpCommands :
    ∀ i ∈ [Instr.jump32, .jump64, .jump96], (presented i).AcceptsNext i ∧ (presented i).UndisturbedAfter := by
  intro i hi
  simp only [List.mem_cons, List.not_mem_nil, or_false] at hi
  rcases hi with rfl | rfl | rfl <;> exact ⟨presented_accepts _ rfl, presented_undisturbed _⟩

/-- The last sub-stream and the last output, for 2^32 outputs each and for 2^96. -/
theorem wit_SubstreamsDisjoint :
    (⟨1, 0⟩ : StatePair) ≠ .zero ∧ 2 ^ 96 - 2 < (2 ^ 128 - 1) / 2 ^ 32 ∧ 2 ^ 32 - 2 < (2 ^ 128 - 1) / 2 ^ 96 ∧
      2 ^ 96 - 1 < 2 ^ 96 := by
  refine ⟨by decide, by norm_num, by norm_num, by norm_num⟩

/-- A reset edge, an accepted ILLEGAL, and an edge that is neither. -/
theorem wit_ErrIllegalSticky :
    (∃ t, step (block ⟨1, 0⟩ [resetSample]) = .next t) ∧ (block ⟨1, 0⟩ [resetSample]).ResetsNext ∧
    (∃ t, step (presented .illegal) = .next t) ∧ (presented .illegal).AcceptsNext .illegal ∧
    ¬ (presented .illegal).ResetsNext ∧ ∃ t, step (block ⟨1, 0⟩ []) = .next t :=
  ⟨⟨_, rfl⟩, ⟨rfl, rfl⟩, ⟨_, rfl⟩, presented_accepts _ rfl, fun h => absurd h.1 (by decide), _, rfl⟩

theorem wit_FlagsNeverRead : ∃ t, step (presented .next) = .next t := ⟨_, rfl⟩

/-- One state for each of the four cases. -/
theorem wit_EdgePriority :
    (running 5 [{ presentInstr .next with rst := some true }]).ResetsNext ∧
    (NoReset (running 5 [presentInstr .next]).sample ∧ (running 5 []).busy = true) ∧
    ((presented .next).sample.rst = some false ∧ (presented .next).busy = false ∧
      (presented .next).sample.cmdValid = some true ∧ decodePorts (presented .next).sample = .ok .next) ∧
    ((block ⟨1, 0⟩ []).sample.rst = some false ∧ (block ⟨1, 0⟩ []).busy = false ∧
      (block ⟨1, 0⟩ []).sample.cmdValid = some false) :=
  ⟨⟨rfl, rfl⟩, ⟨⟨rfl, rfl⟩, rfl⟩, ⟨rfl, rfl, rfl, rfl⟩, rfl, rfl, rfl⟩

/-- cmd_ready taken away by rst and by busy; a command that leaves busy and one that sets it. -/
theorem wit_CommandReady :
    (block ⟨1, 0⟩ []).cmdReady true = false ∧ (running 0 []).cmdReady false = false ∧
    resetSample.rst = some true ∧ resetSample.cmdValid.isSome = true ∧
    (∃ t, exec .next (presented .next) = .next t) ∧ ∃ t, exec .jump32 (presented .jump32) = .next t :=
  ⟨rfl, rfl, rfl, rfl, ⟨_, rfl⟩, _, rfl⟩

/-- A reset, a commit, and each command that writes the state. -/
theorem wit_StateWriters :
    (running 127 []).Inv ∧ (∃ t, step (running 127 []) = .next t) ∧ (running 127 []).CommitsNext ∧
    (block ⟨1, 0⟩ [resetSample]).ResetsNext ∧ (presented (.init 3)).AcceptsNext (.init 3) ∧
    (presented (.load 0 1)).AcceptsNext (.load 0 1) ∧ (presented .next).AcceptsNext .next ∧
    (presented .next).Inv ∧ ∃ t, step (presented .next) = .next t :=
  ⟨running_inv _ _, ⟨_, rfl⟩, ⟨noReset_idle, rfl, rfl⟩, ⟨rfl, rfl⟩, presented_accepts _ rfl, presented_accepts _ rfl,
   presented_accepts _ rfl, block_inv _ _, _, rfl⟩

theorem wit_OnlyLoadAndZeroJumpReachZero :
    (presented (.load 0 0)).Inv ∧ (presented (.load 0 0)).gen ≠ .zero ∧ (presented (.load 0 0)).AcceptsNext (.load 0 0) ∧
      ∃ t, step (presented (.load 0 0)) = .next t :=
  ⟨block_inv _ _, by decide, presented_accepts _ rfl, _, rfl⟩

theorem wit_RndOutWriters :
    (∃ t, step (presented .next) = .next t) ∧ (presented .next).AcceptsNext .next ∧
    (∃ t, step (presented (.init 0)) = .next t) ∧ ¬ (presented (.init 0)).AcceptsNext .next ∧
    ¬ (presented (.init 0)).ResetsNext :=
  ⟨⟨_, rfl⟩, presented_accepts _ rfl, ⟨_, rfl⟩,
   fun h => (nomatch Except.ok.inj (show Except.ok (Instr.init 0) = Except.ok Instr.next from h.1.2.2)),
   fun h => absurd h.1 (by decide)⟩

/-- NEXT at two consecutive edges. -/
theorem wit_RndValidPulse :
    ∃ t u, step (block ⟨1, 0⟩ [presentInstr .next, presentInstr .next]) = .next t ∧ step t = .next u ∧
      (block ⟨1, 0⟩ [presentInstr .next, presentInstr .next]).AcceptsNext .next ∧ t.AcceptsNext .next :=
  ⟨_, _, rfl, rfl, ⟨⟨rfl, rfl, rfl⟩, rfl⟩, ⟨⟨rfl, rfl, rfl⟩, rfl⟩⟩

theorem wit_BusyWhileJumping :
    (∃ t, step (presented .jump96) = .next t) ∧ (∃ t, step (running 126 []) = .next t) ∧
    (∃ t, step (running 127 []) = .next t) ∧ (running 127 []).busy = true := ⟨⟨_, rfl⟩, ⟨_, rfl⟩, ⟨_, rfl⟩, rfl⟩

/-- A commit edge and the edge after it. -/
theorem wit_JumpDonePulse :
    ∃ t u, step (running 127 []) = .next t ∧ step t = .next u ∧ t.jumpDone = true := ⟨_, _, rfl, rfl, rfl⟩

/-- Every command, accepted. -/
theorem wit_EveryCommandCompletes :
    ∀ i ∈ [Instr.illegal, .init 0, .next, .jump 0 0, .jump32, .jump64, .jump96, .load 0 0],
      (presented i).AcceptsNext i := by
  intro i hi
  simp only [List.mem_cons, List.not_mem_nil, or_false] at hi
  rcases hi with rfl | rfl | rfl | rfl | rfl | rfl | rfl | rfl <;> exact presented_accepts _ rfl

/-- Each port shows its own register: a block whose registers all differ. -/
theorem test_outputs :
    let o := ({ block ⟨1, 2⟩ [] with rndOut := 3, rndValid := true, busy := false, jumpDone := false,
                                     errIllegal := true } : State).outputs false
    (o.stateS0, o.stateS1, o.rndOut) = (1, 2, 3) ∧
      (o.rndValid, o.busy, o.jumpDone, o.errIllegal, o.cmdReady, o.zeroState) = (true, false, false, true, true, false) :=
  ⟨rfl, rfl⟩

theorem wit_OneEdgeCommandFrame :
    ∀ i ∈ [Instr.illegal, .init 0, .next, .load 0 0], startsJump i = false ∧ ∃ t, exec i (presented i) = .next t := by
  intro i hi
  simp only [List.mem_cons, List.not_mem_nil, or_false] at hi
  rcases hi with rfl | rfl | rfl | rfl <;> exact ⟨rfl, _, rfl⟩

theorem wit_JumpAcceptFrame :
    ∀ i ∈ [Instr.jump 0 0, .jump32, .jump64, .jump96], startsJump i = true ∧ ∃ t, exec i (presented i) = .next t := by
  intro i hi
  simp only [List.mem_cons, List.not_mem_nil, or_false] at hi
  rcases hi with rfl | rfl | rfl | rfl <;> exact ⟨rfl, _, rfl⟩

/-- The host of 95 P5, who waits once and presents NEXT while the jump runs; and a run of two edges that ends at the
second, after a wait, with a sample still to come. -/
theorem wit_CyclesImplementTransactions :
    Drives [.init 0, .jump 1 0, .next]
      (presentInstr (.init 0) :: .idle :: presentInstr (.jump 1 0) ::
        (List.replicate 128 (presentInstr .next) ++ [presentInstr .next])) ∧
    (block ⟨1, 0⟩ [.idle, presentInstr .next, .idle]).busy = false ∧
    ∃ t, RunEnds [.next] 2 (block ⟨1, 0⟩ [.idle, presentInstr .next, .idle]) t ∧ t.rndValid = true := by
  refine ⟨?_, rfl, ?_⟩
  · exact .oneEdge ⟨rfl, rfl, rfl⟩ rfl <| .wait rfl rfl <|
      .jumping ⟨rfl, rfl, rfl⟩ rfl List.length_replicate (fun _ h => List.eq_of_mem_replicate h ▸ ⟨rfl, rfl⟩) <|
        .oneEdge ⟨rfl, rfl, rfl⟩ rfl .done
  · refine ⟨_, ⟨?_, (runsTo_succ_iff _ _ _).mpr ⟨_, rfl, (runsTo_one_iff _ _).mpr rfl⟩, rfl, rfl, ?_⟩, rfl⟩
    · intro m hm
      match m, hm with
      | 0, _ => exact noReset_idle
      | 1, _ => exact ⟨rfl, rfl⟩
    · intro m u hm _ h
      match m, hm with
      | 0, _ => exact absurd h.1 nofun
      | 1, _ => exact absurd (show [] = [Instr.next] from h.1) nofun

/-- A sample after the edge that ends the run presents nothing of it (R98). -/
theorem test_drives_stops_at_the_end : ¬ Drives [.next] [presentInstr .next, .idle] := by
  intro h
  generalize hx : [presentInstr .next, PortSample.idle] = xs at h
  cases h with
  | wait _ hv _ => cases hx; cases hv
  | oneEdge _ _ h => cases hx; cases h
  | jumping _ hj _ _ _ => cases hj

/-- Both hosts, and a block that is busy for the most cycles that a command can wait, 128, and one that is not. -/
theorem wit_BackToBackTiming :
    (block ⟨1, 0⟩ (backToBack [.next, .jump32])).busy = false ∧ (backToBack [.next, .jump32]).length = 130 ∧
    (block ⟨1, 0⟩ (holdUntilAccepted [.jump32, .next])).busy = false ∧
    (holdUntilAccepted [.jump32, .next]).length = 130 ∧
    (∀ s ∈ [running 0 [], block ⟨1, 0⟩ []], ∀ m, m < 128 → NoReset (s.pins.getD m .idle)) := by
  refine ⟨rfl, by decide +kernel, rfl, by decide +kernel, ?_⟩
  intro s hs m _
  simp only [List.mem_cons, List.not_mem_nil, or_false] at hs
  rcases hs with rfl | rfl <;> exact noReset_idle

/-- Two blocks that differ in the engine registers alone. -/
theorem wit_IdleEngineInvisible :
    SameVisible (block ⟨1, 0⟩ []) { block ⟨1, 0⟩ [] with p := 7, k := 9, w0 := 5, t1 := 6 } ∧
      ∃ s', RunsTo 1 (block ⟨1, 0⟩ []) s' :=
  ⟨⟨rfl, rfl, rfl, rfl, rfl, rfl, rfl, rfl, nofun⟩, _, (runsTo_one_iff _ _).mpr rfl⟩

/-- A host that obeys R99, with an ignored operand undriven, and one for each port that does not. -/
theorem wit_OnlyUnknownLevelsStop :
    (block ⟨1, 0⟩ [{ presentInstr .next with cmdData0 := none }]).hostObeys = true ∧
    (block ⟨1, 0⟩ [{ resetSample with rst := none }]).hostObeys = false ∧
    (block ⟨1, 0⟩ [{ resetSample with cmdValid := none }]).hostObeys = false ∧
    (block ⟨1, 0⟩ [{ presentInstr .next with cmdOp := none }]).hostObeys = false ∧
    (block ⟨1, 0⟩ [{ presentInstr (.init 0) with cmdData0 := none }]).hostObeys = false ∧
    (block ⟨1, 0⟩ [{ presentInstr (.load 0 0) with cmdData1 := none }]).hostObeys = false ∧
    (running 0 [{ presentInstr (.load 0 0) with cmdData1 := none }]).hostObeys = true :=
  ⟨rfl, rfl, rfl, rfl, rfl, rfl, rfl⟩

theorem wit_EdgeTakesOneSample : ∃ t, step (running 3 [.idle, resetSample]) = .next t := ⟨_, rfl⟩

/-- Two instances, an edge of each. -/
theorem wit_InstancesShareNothing :
    ∃ cs ds, stepInstance 0 [presented .next, presented .jump64] = .next cs ∧ stepInstance 1 cs = .next ds ∧
      (0 : Nat) ≠ 1 := ⟨_, _, rfl, rfl, by decide⟩

theorem wit_PseudoInstructionEffects : (∀ s, Pseudo.jumpN 127 ≠ .seed s) ∧ 127 < 128 := ⟨nofun, by decide⟩

end Sys2Proof.Tests
end

section
/-! SUPPORT. The frame of an edge (R7, R41), the bits of a rotation (R9), and the refinement of the transaction level by
the cycle level (R11, R98). -/

namespace Sys2Proof.Machine

/-! ## What an edge leaves: the build parameter and the rest of the samples (R7, R41) -/

/-- No command writes the build parameter or the samples still to come. -/
theorem exec_keeps_resetSeed_and_pins {i : Instr} {s t : State} (h : exec i s = .next t) :
    t.resetSeed = s.resetSeed ∧ t.pins = s.pins := by
  obtain ⟨-, -, -, he⟩ | ⟨-, he⟩ | ⟨-, he⟩ | ⟨-, p, -, he⟩ := exec_next_cases i s <;>
    · cases he.symm.trans h
      exact ⟨rfl, rfl⟩

/-- The per-edge function writes neither: a reset included. -/
theorem tick_keeps_resetSeed_and_pins {x : PortSample} {s t : State} (h : tick x s = .next t) :
    t.resetSeed = s.resetSeed ∧ t.pins = s.pins := by
  obtain ⟨-, -, rfl⟩ | ⟨-, -, rfl⟩ | ⟨-, i, -, he⟩ | ⟨-, -, -, rfl⟩ := tick_next_cases h
  · exact ⟨rfl, rfl⟩
  · simp
  · exact exec_keeps_resetSeed_and_pins he
  · exact ⟨rfl, rfl⟩

/-- An edge leaves the samples after the first. -/
theorem step_pins {s t : State} (h : step s = .next t) : t.pins = s.pins.tail :=
  (tick_keeps_resetSeed_and_pins h).2

/-- An edge moves the host's samples up by one; an exhausted list stays idle (notes/assumptions/3.md). -/
theorem step_pins_getD {s t : State} (h : step s = .next t) (m : Nat) :
    t.pins.getD m .idle = s.pins.getD (m + 1) .idle := by
  rw [step_pins h, List.getD_eq_getElem?_getD, List.getElem?_tail, List.getD_eq_getElem?_getD]

theorem sample_eq_getD_zero (s : State) : s.sample = s.pins.getD 0 .idle := by
  rw [State.sample, List.headD_eq_head?_getD, List.getD_eq_getElem?_getD, List.head?_eq_getElem?]

/-- Settles O57: every edge is one of the four of R84, and none of them writes the parameter or the list. -/
theorem edgeTakesOneSample : Obligations.EdgeTakesOneSample := by
  intro s t h
  exact tick_keeps_resetSeed_and_pins h

/-- A run of n edges takes the first n samples. -/
theorem RunsTo.pins_eq_drop {n : Nat} {s t : State} (h : RunsTo n s t) : t.pins = s.pins.drop n := by
  induction n generalizing s with
  | zero => rw [runsTo_zero_iff] at h; rw [h, List.drop_zero]
  | succ n ih =>
    obtain ⟨u, hu, hut⟩ := (runsTo_succ_iff n s t).mp h
    rw [ih hut, step_pins hu, List.drop_tail]

/-- The sample after n edges is sample n of the list. -/
theorem RunsTo.sample_eq_getD {n : Nat} {s t : State} (h : RunsTo n s t) : t.sample = s.pins.getD n .idle := by
  rw [sample_eq_getD_zero, h.pins_eq_drop, List.getD_eq_getElem?_getD, List.getElem?_drop, Nat.add_zero,
    List.getD_eq_getElem?_getD]

/-! ## The rotation (R9) -/

/-- Bit i of a rotation by less than a word comes from the bit `r` places below, around the end of the word. -/
theorem getLsbD_rotl_of_lt (a : Word) {r i : Nat} (hr : r < 64) (hi : i < 64) :
    (rotl a r).getLsbD i = a.getLsbD ((i + (64 - r)) % 64) := by
  rw [rotl, Nat.mod_eq_of_lt hr, BitVec.getLsbD_or, BitVec.getLsbD_shiftLeft, BitVec.getLsbD_ushiftRight]
  rcases Nat.eq_zero_or_pos r with rfl | hpos
  · simp [hi, Nat.mod_eq_of_lt hi]
  rw [Nat.mod_eq_of_lt (by omega : 64 - r < 64)]
  by_cases hir : i < r
  · have hsum : (i + (64 - r)) % 64 = 64 - r + i := by omega
    simp [hir, hsum]
  · have hsum : (i + (64 - r)) % 64 = i - r := by omega
    have hout : a.getLsbD (64 - r + i) = false := BitVec.getLsbD_of_ge _ _ (by omega)
    simp [hi, hir, hsum, hout]

/-- A rotation reads its distance modulo the word's width. -/
theorem rotl_mod (a : Word) (k : Nat) : rotl a (k % 64) = rotl a k := by
  simp only [rotl, Nat.mod_mod]

/-- Settles O17: the distance is below 64 after reduction, and there each bit comes from one of the two shifts. -/
theorem rotlMovesBitsUp : Obligations.RotlMovesBitsUp := by
  refine ⟨fun a k i hi => ?_, fun a => by simp [rotl]⟩
  rw [← rotl_mod]
  exact getLsbD_rotl_of_lt a (Nat.mod_lt k (by decide)) hi

/-! ## One edge without a reset -/

/-- While a jump runs no command is accepted. -/
theorem accepted_of_busy {s : State} (hb : s.busy = true) : s.accepted = none := by
  simp [State.accepted, hb]

/-- Without cmd_valid no command is accepted. -/
theorem accepted_of_not_valid {s : State} (hv : s.sample.cmdValid = some false) : s.accepted = none := by
  simp [State.accepted, hv]

/-- A running jump takes the edge, whatever is presented (R84 case 2). -/
theorem step_of_busy {s : State} (hx : NoReset s.sample) (hb : s.busy = true) :
    step s = .next s.dropSample.engineStep := by
  obtain ⟨hr, hv⟩ := hx
  obtain ⟨v, hv⟩ := Option.isSome_iff_exists.mp hv
  simp [step, tick, hr, hv, hb]

/-- An edge that accepts a command has the command's effect (R84 case 3). -/
theorem step_of_acceptsNext {s : State} {i : Instr} (h : s.AcceptsNext i) : step s = exec i s.dropSample := by
  obtain ⟨⟨hr, hv, hd⟩, hb⟩ := h
  simp [step, tick, hr, hv, hb, hd]

/-- An edge with no command presented to a block that is not busy is idle (R84 case 4). -/
theorem step_of_idle {s : State} (hr : s.sample.rst = some false) (hv : s.sample.cmdValid = some false)
    (hb : s.busy = false) : step s = .next s.dropSample.idleEdge := by
  simp [step, tick, hr, hv, hb]

/-- An edge without a reset is an engine step, an accepted command or an idle edge, and `accepted` says which command. -/
theorem step_next_cases {s t : State} (hx : NoReset s.sample) (h : step s = .next t) :
    (s.busy = true ∧ s.accepted = none ∧ t = s.dropSample.engineStep) ∨
    (∃ i, s.busy = false ∧ s.accepted = some i ∧ exec i s.dropSample = .next t) ∨
    (s.busy = false ∧ s.accepted = none ∧ t = s.dropSample.idleEdge) := by
  obtain ⟨hr, -, -⟩ | ⟨-, hb, ht⟩ | ⟨hb, i, hp, he⟩ | ⟨-, hv, hb, ht⟩ := tick_next_cases h
  · cases hx.1.symm.trans hr
  · exact .inl ⟨hb, accepted_of_busy hb, ht⟩
  · exact .inr (.inl ⟨i, hb, (accepted_eq_some_iff s i).mpr ⟨hp, hb⟩, he⟩)
  · exact .inr (.inr ⟨hb, accepted_of_not_valid hv, ht⟩)

theorem ne_next_of_startsJump {i : Instr} (hj : startsJump i = true) : i ≠ .next := by
  rintro rfl
  cases hj

theorem ne_illegal_of_startsJump {i : Instr} (hj : startsJump i = true) : i ≠ .illegal := by
  rintro rfl
  cases hj

/-- A jump's accept edge sets busy; no other command changes it (R18). -/
theorem exec_busy {i : Instr} {s t : State} (h : exec i s = .next t) : t.busy = (startsJump i || s.busy) := by
  obtain ⟨hj, -, -, he⟩ | ⟨rfl, he⟩ | ⟨rfl, he⟩ | ⟨hj, p, -, he⟩ := exec_next_cases i s <;>
    cases he.symm.trans h
  · simp [hj]
  · rfl
  · rfl
  · simp [hj]

/-- A command's accept edge never sets jump_done, and sets rnd_valid for NEXT alone (R17, R19). -/
theorem exec_pulses {i : Instr} {s t : State} (h : exec i s = .next t) :
    (t.rndValid = true ↔ i = .next) ∧ t.jumpDone = false := by
  obtain ⟨-, hn, -, he⟩ | ⟨rfl, he⟩ | ⟨rfl, he⟩ | ⟨hj, p, -, he⟩ := exec_next_cases i s <;>
    cases he.symm.trans h
  · simp [hn]
  · simp
  · simp
  · simp [ne_next_of_startsJump hj]

/-- An engine step that ends the jump is the commit edge, which sets jump_done (R71). -/
theorem engineStep_jumpDone_of_not_busy {s : State} (hb : s.busy = true) (ht : s.engineStep.busy = false) :
    s.engineStep.jumpDone = true := by
  by_cases hk : s.k = 127#7
  · simp [engineStep_commit hk]
  · simp [engineStep_continue hk, hb] at ht

/-! ## The refinement map

A jump changes the architectural values at its commit edge, 128 edges after it is accepted; the transaction level changes
them at once. `settled` reads a running jump as already done, so that one edge is at most one transaction. -/

/-- The architectural values, with a running jump taken as committed (R72). -/
def State.settled (s : State) : Arch :=
  if s.busy then { s.arch with gen := jumpState s.gen s.p } else s.arch

theorem settled_of_not_busy {s : State} (hb : s.busy = false) : s.settled = s.arch := by
  simp [State.settled, hb]

theorem settled_of_busy {s : State} (hb : s.busy = true) :
    s.settled = ⟨jumpState s.gen s.p, s.rndOut, s.errIllegal⟩ := by
  simp [State.settled, hb, State.arch]

/-- While a jump runs, the engine holds the jump loop after k iterations (the clause `engine` of `State.Inv`). -/
def State.EngineOnLoop (s : State) : Prop :=
  s.busy = true → LoopState.mk s.acc s.work = jumpLoop s.p s.gen s.k.toNat

theorem engineOnLoop_of_not_busy {s : State} (hb : s.busy = false) : s.EngineOnLoop :=
  fun h => by cases hb.symm.trans h

/-- An accepted command is one transaction. -/
theorem exec_settled {i : Instr} {s t : State} (hb : s.busy = false) (h : exec i s = .next t) :
    t.settled = transact i s.settled := by
  rw [settled_of_not_busy hb]
  obtain ⟨-, hn, hi, he⟩ | ⟨rfl, he⟩ | ⟨rfl, he⟩ | ⟨hj, p, hg, he⟩ := exec_next_cases i s <;>
    cases he.symm.trans h
  · rw [settled_of_not_busy (s := s.clearPulses.setGen _) hb]
    simp [transact, State.arch, hn, hi]
  · rw [settled_of_not_busy]
    · rfl
    · exact hb
  · rw [settled_of_not_busy (s := s.clearPulses.raiseIllegal) hb]
    rfl
  · rw [settled_of_busy (s.startJump_busy p)]
    simp [transact, State.arch, ne_next_of_startsJump hj, ne_illegal_of_startsJump hj, hg]

/-- A jump starts on its loop; no other command runs the engine. -/
theorem exec_engineOnLoop {i : Instr} {s t : State} (hb : s.busy = false) (h : exec i s = .next t) :
    t.EngineOnLoop := by
  obtain ⟨-, -, -, he⟩ | ⟨-, he⟩ | ⟨-, he⟩ | ⟨-, p, -, he⟩ := exec_next_cases i s <;>
    cases he.symm.trans h
  · exact engineOnLoop_of_not_busy hb
  · exact engineOnLoop_of_not_busy hb
  · exact engineOnLoop_of_not_busy hb
  · exact fun _ => rfl

/-- The commit edge writes the jumped state (R71, R72). -/
theorem engineStep_gen_of_commit {s : State} (hl : s.EngineOnLoop) (hb : s.busy = true) (hk : s.k = 127#7) :
    s.engineStep.gen = jumpState s.gen s.p := by
  have hloop := hl hb
  rw [hk] at hloop
  rw [jumpState_eq, jumpLoop_succ _ _ 127, show (127 : Nat) = (127#7).toNat from rfl, ← hloop]
  rw [engineStep_commit hk, hk]
  rfl

/-- An engine step is no transaction. -/
theorem engineStep_settled {s : State} (hl : s.EngineOnLoop) (hb : s.busy = true) :
    s.engineStep.settled = s.settled := by
  rw [settled_of_busy hb]
  by_cases hk : s.k = 127#7
  · rw [settled_of_not_busy (by rw [engineStep_commit hk]), State.arch, engineStep_gen_of_commit hl hb hk]
    simp
  · rw [engineStep_continue hk, settled_of_busy (by simpa using hb)]
    rfl

/-- An engine step stays on the loop. -/
theorem engineStep_engineOnLoop {s : State} (hl : s.EngineOnLoop) (hb : s.busy = true) :
    s.engineStep.EngineOnLoop := by
  intro ht
  by_cases hk : s.k = 127#7
  · simp [engineStep_commit hk] at ht
  · have hgen : s.engineStep.gen = s.gen := by rw [engineStep_continue hk]; rfl
    have hsucc : s.engineStep.k.toNat = s.k.toNat + 1 := by rw [engineStep_continue hk, k_succ_toNat hk]
    rw [engineStep_loop, hl hb, hgen, hsucc, State.engineStep_p, jumpLoop_succ]

/-! ## The simulation -/

theorem runCommands_append (prog prog' : List Instr) (a : Arch) :
    runCommands (prog ++ prog') a = runCommands prog' (runCommands prog a) :=
  List.foldl_append

/-- The state follows the commands accepted so far, from the architectural values `a`: its settled values are theirs,
and a running jump is on its loop and is the last of them. -/
structure State.Follows (s : State) (done : List Instr) (a : Arch) : Prop where
  settled : s.settled = runCommands done a
  onLoop : s.EngineOnLoop
  jumping : s.busy = true → ∃ i, done.getLast? = some i ∧ startsJump i = true

/-- A block that is not busy follows no command yet. -/
theorem follows_nil {s : State} (hb : s.busy = false) : s.Follows [] s.arch where
  settled := settled_of_not_busy hb
  onLoop := engineOnLoop_of_not_busy hb
  jumping := fun h => by cases hb.symm.trans h

/-- The commuting diagram of one edge: the next state follows the commands with the one accepted at the edge. -/
theorem State.Follows.step {s t : State} {done : List Instr} {a : Arch} (hf : s.Follows done a)
    (hx : NoReset s.sample) (h : step s = .next t) : t.Follows (done ++ s.accepted.toList) a := by
  obtain ⟨hset, hloop, hjump⟩ := hf
  obtain ⟨hb, hacc, rfl⟩ | ⟨i, hb, hacc, he⟩ | ⟨hb, hacc, rfl⟩ := step_next_cases hx h <;> rw [hacc]
  · rw [Option.toList_none, List.append_nil]
    have hloop' : s.dropSample.EngineOnLoop := hloop
    exact ⟨(engineStep_settled hloop' hb).trans hset, engineStep_engineOnLoop hloop' hb, fun _ => hjump hb⟩
  · refine ⟨?_, exec_engineOnLoop (s := s.dropSample) hb he, fun ht => ⟨i, by simp, ?_⟩⟩
    · have hset' : s.dropSample.settled = runCommands done a := hset
      rw [exec_settled (s := s.dropSample) hb he, hset', runCommands_append]
      rfl
    · simpa [hb, ht] using (exec_busy he).symm
  · rw [Option.toList_none, List.append_nil]
    exact ⟨hset, hloop, fun ht => by cases hb.symm.trans ht⟩

/-- The simulation along a run without a reset. -/
theorem State.Follows.runsTo {n : Nat} {s t : State} {done : List Instr} {a : Arch} (hf : s.Follows done a)
    (hx : ∀ m, m < n → NoReset (s.pins.getD m .idle)) (h : RunsTo n s t) : t.Follows (done ++ acceptedIn n s) a := by
  induction n generalizing s done with
  | zero => rw [runsTo_zero_iff] at h; rw [acceptedIn_zero, List.append_nil, ← h]; exact hf
  | succ n ih =>
    obtain ⟨u, hu, hut⟩ := (runsTo_succ_iff n s t).mp h
    have hfirst : NoReset s.sample := by rw [sample_eq_getD_zero]; exact hx 0 n.succ_pos
    rw [acceptedIn_succ hu, ← List.append_assoc]
    refine ih (hf.step hfirst hu) (fun m hm => ?_) hut
    rw [step_pins_getD hu]
    exact hx (m + 1) (Nat.succ_lt_succ hm)

/-- A run of n + m edges passes a state after n. -/
theorem RunsTo.split {n m : Nat} {s t : State} (h : RunsTo (n + m) s t) : ∃ u, RunsTo n s u ∧ RunsTo m u t := by
  induction n generalizing s with
  | zero => exact ⟨s, (runsTo_zero_iff s s).mpr rfl, by rwa [Nat.zero_add] at h⟩
  | succ n ih =>
    rw [Nat.succ_add] at h
    obtain ⟨v, hv, hvt⟩ := (runsTo_succ_iff _ s t).mp h
    obtain ⟨u, hvu, hut⟩ := ih hvt
    exact ⟨u, (runsTo_succ_iff _ _ _).mpr ⟨v, hv, hvu⟩, hut⟩

/-- Where a run ends, the architectural values are those of its commands. -/
theorem RunEnds.arch_eq {prog : List Instr} {n : Nat} {s t : State} (hb : s.busy = false) (h : RunEnds prog n s t) :
    t.arch = runCommands prog s.arch := by
  have hf := (follows_nil hb).runsTo h.noReset h.runs
  rw [← settled_of_not_busy h.portFree, hf.settled, h.accepted, List.nil_append]

/-- Where a run of some command ends, the pulses are those of the last command: the last edge accepts a command that
leaves busy = 0, or commits the jump accepted last. -/
theorem RunEnds.pulses {prog : List Instr} {n : Nat} {s t : State} (hb : s.busy = false) (h : RunEnds prog n s t)
    (hne : prog ≠ []) :
    (t.rndValid = true ↔ prog.getLast? = some .next) ∧
      (t.jumpDone = true ↔ ∃ i, prog.getLast? = some i ∧ startsJump i = true) := by
  obtain ⟨hx, hrun, hacc, hfree, hfirst⟩ := h
  cases n with
  | zero => exact absurd hacc.symm hne
  | succ n =>
    obtain ⟨u, hsu, hut⟩ := RunsTo.split hrun
    have hu := hfirst n u n.lt_succ_self hsu
    have hsample : NoReset u.sample := by rw [hsu.sample_eq_getD]; exact hx n n.lt_succ_self
    rw [runsTo_one_iff] at hut
    rw [acceptedIn_add hsu, acceptedIn_succ hut, acceptedIn_zero, List.append_nil] at hacc
    obtain ⟨hub, ha, rfl⟩ | ⟨i, hub, ha, he⟩ | ⟨hub, ha, -⟩ := step_next_cases hsample hut <;>
      rw [ha] at hacc
    · rw [Option.toList_none, List.append_nil] at hacc
      obtain ⟨i, hlast, hj⟩ :=
        ((follows_nil hb).runsTo (fun m hm => hx m (hm.trans n.lt_succ_self)) hsu).jumping hub
      rw [List.nil_append, hacc] at hlast
      have hdone := engineStep_jumpDone_of_not_busy (s := u.dropSample) hub hfree
      simp [hdone, hlast, hj, ne_next_of_startsJump hj]
    · have hj : startsJump i = false := by simpa [hfree, hub] using (exec_busy he).symm
      obtain ⟨hrnd, hdone⟩ := exec_pulses he
      simp [← hacc, hrnd, hdone, hj]
    · rw [Option.toList_none, List.append_nil] at hacc
      exact absurd ⟨hacc, hub⟩ hu

/-! ## Every presented sequence has a run that ends with its samples -/

/-- One more edge before a run: it ends one edge later, after the command of that edge, unless it had ended already. -/
theorem RunEnds.step_before {prog : List Instr} {n : Nat} {s u t : State} (hx : NoReset s.sample)
    (hstep : step s = .next u) (hopen : s.accepted.toList ++ prog ≠ [] ∨ s.busy = true) (h : RunEnds prog n u t) :
    RunEnds (s.accepted.toList ++ prog) (n + 1) s t where
  noReset := by
    intro m hm
    cases m with
    | zero => rwa [← sample_eq_getD_zero]
    | succ m => rw [← step_pins_getD hstep]; exact h.noReset m (Nat.lt_of_succ_lt_succ hm)
  runs := (runsTo_succ_iff _ _ _).mpr ⟨u, hstep, h.runs⟩
  accepted := by rw [acceptedIn_succ hstep, h.accepted]
  portFree := h.portFree
  first := by
    rintro m v hm hv ⟨hacc, hfree⟩
    cases m with
    | zero =>
      rw [runsTo_zero_iff] at hv
      subst hv
      obtain hne | hb := hopen
      · exact hne hacc.symm
      · cases hb.symm.trans hfree
    | succ m =>
      obtain ⟨w, hw, hwv⟩ := (runsTo_succ_iff m s v).mp hv
      cases hw.symm.trans hstep
      rw [acceptedIn_succ hstep] at hacc
      exact h.first m v (by omega) hwv ⟨List.append_cancel_left hacc, hfree⟩

/-- The run of no command ends where it starts (notes/assumptions/13.md). -/
theorem runEnds_nil {s : State} (hb : s.busy = false) : RunEnds [] 0 s s where
  noReset := nofun
  runs := (runsTo_zero_iff s s).mpr rfl
  accepted := rfl
  portFree := hb
  first := nofun

theorem sample_of_pins_cons {s : State} {x : PortSample} {xs : List PortSample} (h : s.pins = x :: xs) :
    s.sample = x := by
  rw [State.sample, h]; rfl

/-- The run that a state begins whose jump has as many edges left as samples are held: those edges, then the run that
every free block begins with the samples after them. -/
theorem runEnds_of_jump_held {prog : List Instr} {n : Nat} {xs : List PortSample}
    (hfree : ∀ s : State, s.busy = false → s.pins = xs → ∃ t, RunEnds prog n s t) (held : List PortSample) :
    ∀ s : State, s.busy = true → s.k.toNat + held.length = 128 → (∀ y ∈ held, NoReset y) → s.pins = held ++ xs →
      ∃ t, RunEnds prog (held.length + n) s t := by
  induction held with
  | nil =>
    intro s _ hk _ _
    exact absurd hk (Nat.ne_of_lt s.k.isLt)
  | cons y ys ih =>
    intro s hb hk hno hp
    rw [List.length_cons] at hk
    have hx : NoReset s.sample := by rw [sample_of_pins_cons hp]; exact hno y List.mem_cons_self
    have hstep := step_of_busy hx hb
    have hpins : s.dropSample.engineStep.pins = ys ++ xs := by rw [step_pins hstep, hp]; rfl
    have hrest : ∃ t, RunEnds prog (ys.length + n) s.dropSample.engineStep t := by
      by_cases hlast : s.k = 127#7
      · have hk127 : s.k.toNat = 127 := congrArg BitVec.toNat hlast
        obtain rfl : ys = [] := List.length_eq_zero_iff.mp (by omega)
        obtain ⟨t, ht⟩ := hfree _ (by rw [engineStep_commit (s := s.dropSample) hlast]) hpins
        exact ⟨t, by simpa using ht⟩
      · refine ih _ ?_ ?_ (fun z hz => hno z (List.mem_cons_of_mem y hz)) hpins
        · rw [engineStep_continue (s := s.dropSample) hlast]; exact hb
        · rw [engineStep_continue (s := s.dropSample) hlast]
          have := k_succ_toNat hlast
          show (s.k + 1).toNat + ys.length = 128
          omega
    obtain ⟨t, ht⟩ := hrest
    have hrun := ht.step_before hx hstep (.inr hb)
    rw [accepted_of_busy hb, Option.toList_none, List.nil_append] at hrun
    exact ⟨t, by rwa [List.length_cons, Nat.add_right_comm]⟩

/-- A run that starts with an edge that accepts a command. -/
theorem RunEnds.accept_before {i : Instr} {prog : List Instr} {n : Nat} {s u t : State} (ha : s.AcceptsNext i)
    (he : exec i s.dropSample = .next u) (h : RunEnds prog n u t) : RunEnds (i :: prog) (n + 1) s t := by
  have hacc := (accepted_eq_some_iff s i).mpr ha
  have hx : NoReset s.sample := ⟨ha.1.1, by rw [ha.1.2.1]; rfl⟩
  have hrun := h.step_before hx ((step_of_acceptsNext ha).trans he) (.inl (by simp [hacc]))
  rwa [hacc] at hrun

/-- Every command's meaning answers a next state. -/
theorem exec_total (i : Instr) (s : State) : ∃ t, exec i s = .next t := by
  obtain ⟨-, -, -, he⟩ | ⟨-, he⟩ | ⟨-, he⟩ | ⟨-, p, -, he⟩ := exec_next_cases i s <;> exact ⟨_, he⟩

/-- A jump's accept edge starts the engine at bit 0. -/
theorem exec_k_of_startsJump {i : Instr} {s t : State} (hj : startsJump i = true) (h : exec i s = .next t) :
    t.k = 0 := by
  obtain ⟨hj', -, -, -⟩ | ⟨rfl, -⟩ | ⟨rfl, -⟩ | ⟨-, p, -, he⟩ := exec_next_cases i s
  · cases hj.symm.trans hj'
  · cases hj
  · cases hj
  · cases he.symm.trans h
    rfl

/-- The samples that present a command sequence make its run, which ends with them. -/
theorem Drives.runEnds {prog : List Instr} {xs : List PortSample} (hd : Drives prog xs) (rest : List PortSample) :
    ∀ s : State, s.busy = false → s.pins = xs ++ rest → ∃ t, RunEnds prog xs.length s t := by
  induction hd with
  | done => exact fun s hb _ => ⟨s, runEnds_nil hb⟩
  | wait hr hv _ ih =>
    intro s hb hp
    rw [← sample_of_pins_cons hp] at hr hv
    have hstep := step_of_idle hr hv hb
    obtain ⟨t, ht⟩ := ih s.dropSample.idleEdge hb (by rw [step_pins hstep, hp]; rfl)
    have hacc := accepted_of_not_valid hv
    have hrun := ht.step_before ⟨hr, by rw [hv]; rfl⟩ hstep (.inl (by simp))
    rw [hacc] at hrun
    exact ⟨t, hrun⟩
  | @oneEdge x i prog xs hx hj _ ih =>
    intro s hb hp
    rw [← sample_of_pins_cons hp] at hx
    obtain ⟨u, he⟩ := exec_total i s.dropSample
    have hstep := (step_of_acceptsNext ⟨hx, hb⟩).trans he
    obtain ⟨t, ht⟩ := ih u (by rw [exec_busy he, hj]; exact hb) (by rw [step_pins hstep, hp]; rfl)
    exact ⟨t, ht.accept_before ⟨hx, hb⟩ he⟩
  | @jumping x i held prog xs hx hj hlen hno _ ih =>
    intro s hb hp
    rw [← sample_of_pins_cons hp] at hx
    obtain ⟨u, he⟩ := exec_total i s.dropSample
    have hstep := (step_of_acceptsNext ⟨hx, hb⟩).trans he
    have hpins : u.pins = held ++ (xs ++ rest) := by rw [step_pins hstep, hp, ← List.append_assoc]; rfl
    obtain ⟨t, ht⟩ := runEnds_of_jump_held ih held u (by rw [exec_busy he, hj]; rfl)
      (by rw [exec_k_of_startsJump hj he, hlen]; rfl) hno hpins
    refine ⟨t, ?_⟩
    rw [List.length_cons, List.length_append]
    exact ht.accept_before ⟨hx, hb⟩ he

/-- Settles O53: the run exists by induction on how its samples are presented, and `settled` refines every edge of any
run to at most one transaction. -/
theorem cyclesImplementTransactions : Obligations.CyclesImplementTransactions := by
  refine ⟨fun prog xs rest s hd hb hp => ?_, fun prog n s t hb h => ⟨h.arch_eq hb, h.pulses hb⟩⟩
  obtain ⟨t, ht⟩ := hd.runEnds rest s hb hp
  exact ⟨t, ht, by rw [ht.runs.pins_eq_drop, hp, List.drop_left], ht.arch_eq hb⟩

end Sys2Proof.Machine
end

section
/-! SUPPORT. The registers of 10_state.md: the four kinds of edge with what each excludes, the writers of each register
(R14 to R20), reset (R27), the output ports (R40) and the engine registers while busy = 0 (R23). -/

namespace Sys2Proof.Machine

/-! ## The registers after an idle edge -/

@[simp] theorem State.idleEdge_busy (s : State) : s.idleEdge.busy = s.busy := rfl
@[simp] theorem State.idleEdge_errIllegal (s : State) : s.idleEdge.errIllegal = s.errIllegal := rfl

/-! ## The four kinds of edge exclude each other (R84) -/

theorem State.AcceptsNext.eq_iff {s : State} {i : Instr} (h : s.AcceptsNext i) (j : Instr) :
    s.AcceptsNext j ↔ i = j :=
  ⟨fun hj => h.1.unique hj.1, fun hij => hij ▸ h⟩

theorem State.AcceptsNext.not_resetsNext {s : State} {i : Instr} (h : s.AcceptsNext i) : ¬ s.ResetsNext :=
  fun hr => by cases h.1.1.symm.trans hr.1

theorem State.ResetsNext.not_noReset {s : State} (h : s.ResetsNext) : ¬ NoReset s.sample :=
  fun hx => by cases h.1.symm.trans hx.1

theorem not_acceptsNext_of_busy {s : State} (hb : s.busy = true) (i : Instr) : ¬ s.AcceptsNext i :=
  (accepted_eq_none_iff s).mp (accepted_of_busy hb) i

theorem not_acceptsNext_of_not_valid {s : State} (hv : s.sample.cmdValid = some false) (i : Instr) :
    ¬ s.AcceptsNext i :=
  (accepted_eq_none_iff s).mp (accepted_of_not_valid hv) i

/-- A reset takes the edge, whatever is presented or runs (R84 case 1). -/
theorem step_of_resetsNext {s : State} (h : s.ResetsNext) : step s = .next s.dropSample.resetEdge := by
  obtain ⟨hr, hv⟩ := h
  obtain ⟨v, hv⟩ := Option.isSome_iff_exists.mp hv
  simp [step, tick, hr, hv]

/-- An edge that answers a next state is one of the four of R84, and none of the others. -/
theorem step_next_kinds {s t : State} (h : step s = .next t) :
    (s.ResetsNext ∧ (∀ i, ¬ s.AcceptsNext i) ∧ t = s.dropSample.resetEdge) ∨
    (NoReset s.sample ∧ s.busy = true ∧ ¬ s.ResetsNext ∧ (∀ i, ¬ s.AcceptsNext i) ∧ t = s.dropSample.engineStep) ∨
    (∃ i, s.AcceptsNext i ∧ ¬ s.ResetsNext ∧ exec i s.dropSample = .next t) ∨
    (s.sample.rst = some false ∧ s.sample.cmdValid = some false ∧ s.busy = false ∧ ¬ s.ResetsNext ∧
      (∀ i, ¬ s.AcceptsNext i) ∧ t = s.dropSample.idleEdge) := by
  obtain ⟨hr, hv, ht⟩ | ⟨hx, hb, ht⟩ | ⟨hb, i, hp, he⟩ | ⟨hr, hv, hb, ht⟩ := tick_next_cases h
  · have hreset : s.ResetsNext := ⟨hr, hv⟩
    exact .inl ⟨hreset, fun i hi => hi.not_resetsNext hreset, ht⟩
  · exact .inr (.inl ⟨hx, hb, fun hreset => hreset.not_noReset hx, not_acceptsNext_of_busy hb, ht⟩)
  · have hi : s.AcceptsNext i := ⟨hp, hb⟩
    exact .inr (.inr (.inl ⟨i, hi, hi.not_resetsNext, he⟩))
  · have hx : NoReset s.sample := ⟨hr, by rw [hv]; rfl⟩
    exact .inr (.inr (.inr ⟨hr, hv, hb, fun hreset => hreset.not_noReset hx, not_acceptsNext_of_not_valid hv, ht⟩))

/-- The next state of an edge that accepts a command is the command's. -/
theorem exec_of_acceptsNext {s t : State} {i : Instr} (ha : s.AcceptsNext i) (h : step s = .next t) :
    exec i s.dropSample = .next t :=
  (step_of_acceptsNext ha).symm.trans h

/-- The next state of an edge that samples a reset is the reset state. -/
theorem eq_resetEdge_of_resetsNext {s t : State} (hr : s.ResetsNext) (h : step s = .next t) :
    t = s.dropSample.resetEdge :=
  Host.Outcome.next.inj (h.symm.trans (step_of_resetsNext hr))

/-! ## What a command writes in each register -/

/-- A jump's accept edge leaves (s0, s1); every other command leaves there what it computes at once (R14). -/
theorem exec_gen {i : Instr} {s t : State} (h : exec i s = .next t) :
    t.gen = if startsJump i then s.gen else genAfter i s.gen := by
  obtain ⟨hj, -, -, he⟩ | ⟨rfl, he⟩ | ⟨rfl, he⟩ | ⟨hj, p, -, he⟩ := exec_next_cases i s <;>
    cases he.symm.trans h
  · simp [hj]
  · rfl
  · rfl
  · simp [hj]

/-- NEXT alone writes rnd_out (R16). -/
theorem exec_rndOut {i : Instr} {s t : State} (h : exec i s = .next t) :
    t.rndOut = if i = .next then stepResult s.gen else s.rndOut := by
  obtain ⟨-, hn, -, he⟩ | ⟨rfl, he⟩ | ⟨rfl, he⟩ | ⟨hj, p, -, he⟩ := exec_next_cases i s <;>
    cases he.symm.trans h
  · simp [hn]
  · rfl
  · rfl
  · simp [ne_next_of_startsJump hj]

/-- The reserved opcode alone sets err_illegal, and no command clears it (R20). -/
theorem exec_errIllegal {i : Instr} {s t : State} (h : exec i s = .next t) :
    t.errIllegal = true ↔ s.errIllegal = true ∨ i = .illegal := by
  obtain ⟨-, -, hi, he⟩ | ⟨rfl, he⟩ | ⟨rfl, he⟩ | ⟨hj, p, -, he⟩ := exec_next_cases i s <;>
    cases he.symm.trans h
  · simp [hi]
  · simp
  · simp
  · simp [ne_illegal_of_startsJump hj]

/-! ## What an engine step writes outside the engine (R71) -/

theorem engineStep_gen_of_continue {s : State} (hk : s.k ≠ 127#7) : s.engineStep.gen = s.gen := by
  rw [engineStep_continue hk]; rfl

/-- A running engine keeps busy up until its commit edge. -/
theorem engineStep_busy_iff {s : State} (hb : s.busy = true) : s.engineStep.busy = true ↔ s.k ≠ 127#7 := by
  by_cases hk : s.k = 127#7
  · simp [engineStep_commit hk, hk]
  · simp [engineStep_continue hk, hk, hb]

/-! ## Reset (R27) -/

/-- Init never gives the all-zero state: the word after a first word 0 is the constant of the LCG (R52). -/
theorem initState_ne_zero (seed : Word) : initState seed ≠ .zero := by
  intro h
  obtain ⟨h0, h1⟩ := StatePair.mk.inj h
  rw [h0] at h1
  exact absurd h1 (by decide)

theorem resetFor_zeroState (seed : Word) (pins : List PortSample) :
    (State.resetFor seed pins).zeroState = false := by
  rw [Bool.eq_false_iff, ne_eq, State.zeroState_iff]
  exact initState_ne_zero seed

/-- Settles O9: every register is a field of `resetFor`; the default build's state is Init(0). -/
theorem resetValues : Obligations.ResetValues := by
  refine ⟨by decide, rfl, ?_⟩
  rintro seed pins s rfl
  exact ⟨rfl, rfl, rfl, rfl, rfl, rfl, rfl, rfl, rfl, rfl, rfl, rfl, resetFor_zeroState seed pins⟩

/-- A block that is not busy and shows no pulse meets the invariant, whatever its engine holds. -/
theorem inv_of_quiet {s : State} (hb : s.busy = false) (hv : s.rndValid = false) : s.Inv where
  engine := engineOnLoop_of_not_busy hb
  quiet := fun h => by cases hb.symm.trans h
  onePulse := fun h => by cases hv.symm.trans h.1

/-- Settles O33: reset clears busy and the pulses, in the default build as in every other. -/
theorem engineInvariantAtReset : Obligations.EngineInvariantAtReset :=
  ⟨inv_of_quiet rfl rfl, fun _ _ => inv_of_quiet rfl rfl⟩

/-! ## The writers of each register (R14, R16 to R18, R20) -/

/-- Settles O44: each writer's edge by what that edge computes; an edge that is none of theirs leaves (s0, s1). -/
theorem stateWriters : Obligations.StateWriters := by
  intro s t hinv h
  refine ⟨fun hr => ?_, fun hc => ?_, fun seed ha => exec_gen (exec_of_acceptsNext ha h),
    fun d0 d1 ha => exec_gen (exec_of_acceptsNext ha h), fun ha => exec_gen (exec_of_acceptsNext ha h), fun hne => ?_⟩
  · rw [eq_resetEdge_of_resetsNext hr h]; rfl
  · obtain ⟨hx, hb, hk⟩ := hc
    obtain rfl := Host.Outcome.next.inj ((step_of_busy hx hb).symm.trans h)
    exact engineStep_gen_of_commit (s := s.dropSample) hinv.engine hb hk
  · obtain ⟨hr, -, -⟩ | ⟨hx, hb, -, -, rfl⟩ | ⟨i, ha, -, he⟩ | ⟨-, -, -, -, -, rfl⟩ := step_next_kinds h
    · exact .inl hr
    · by_cases hk : s.k = 127#7
      · exact .inr (.inl ⟨hx, hb, hk⟩)
      · exact absurd (engineStep_gen_of_continue (s := s.dropSample) hk) hne
    · have hgen := exec_gen he
      cases i with
      | next => exact .inr (.inr (.inl ha))
      | init seed => exact .inr (.inr (.inr (.inl ⟨seed, ha⟩)))
      | load d0 d1 => exact .inr (.inr (.inr (.inr ⟨d0, d1, ha⟩)))
      | illegal | jump _ _ | jump32 | jump64 | jump96 => exact absurd hgen hne
    · exact absurd rfl hne

/-- Settles O46: NEXT and reset write rnd_out; the engine, the other commands and the idle edge do not. -/
theorem rndOutWriters : Obligations.RndOutWriters := by
  intro s t h
  refine ⟨fun ha => exec_rndOut (exec_of_acceptsNext ha h), fun hr => ?_, fun hna hnr => ?_⟩
  · rw [eq_resetEdge_of_resetsNext hr h]; rfl
  · obtain ⟨hr, -, -⟩ | ⟨-, -, -, -, rfl⟩ | ⟨i, ha, -, he⟩ | ⟨-, -, -, -, -, rfl⟩ := step_next_kinds h
    · exact absurd hr hnr
    · exact s.dropSample.engineStep_rndOut
    · rw [exec_rndOut he, if_neg (by rintro rfl; exact hna ha), State.dropSample_rndOut]
    · rfl

/-- An edge leaves rnd_valid up exactly if it accepts NEXT. -/
theorem step_rndValid_iff {s t : State} (h : step s = .next t) : t.rndValid = true ↔ s.AcceptsNext .next := by
  obtain ⟨-, hno, rfl⟩ | ⟨-, -, -, hno, rfl⟩ | ⟨i, ha, -, he⟩ | ⟨-, -, -, -, hno, rfl⟩ := step_next_kinds h
  · exact iff_of_false nofun (hno _)
  · exact iff_of_false (by simp) (hno _)
  · exact (exec_pulses he).1.trans (ha.eq_iff .next).symm
  · exact iff_of_false nofun (hno _)

/-- Settles O47: the pulse at each of the two edges, and NEXT's state and output between them. -/
theorem rndValidPulse : Obligations.RndValidPulse := by
  refine ⟨fun s t => step_rndValid_iff, fun s t u hst htu hs ht => ?_⟩
  have hout : t.rndOut = stepResult s.gen := exec_rndOut (exec_of_acceptsNext hs hst)
  have hgen : t.gen = stepState s.gen := exec_gen (exec_of_acceptsNext hs hst)
  have hout' : u.rndOut = stepResult t.gen := exec_rndOut (exec_of_acceptsNext ht htu)
  exact ⟨(step_rndValid_iff hst).mpr hs, hout, (step_rndValid_iff htu).mpr ht, hgen ▸ hout'⟩

/-- Settles O48: a jump's accept edge sets busy, and a running jump keeps it up at every edge but a reset and the
commit. -/
theorem busyWhileJumping : Obligations.BusyWhileJumping := by
  refine fun s t h => ⟨?_, not_acceptsNext_of_busy⟩
  obtain ⟨hr, hno, rfl⟩ | ⟨hx, hb, -, hno, rfl⟩ | ⟨i, ha, -, he⟩ | ⟨-, -, hb, -, hno, rfl⟩ := step_next_kinds h
  · refine iff_of_false nofun ?_
    rintro (⟨i, hi, -⟩ | ⟨-, hx, -⟩)
    · exact hno i hi
    · exact hr.not_noReset hx
  · rw [engineStep_busy_iff (s := s.dropSample) hb]
    simp [State.CommitsNext, hno, hx, hb]
  · rw [exec_busy he]
    simp [ha.eq_iff, ha.2]
  · refine iff_of_false (by simp [hb]) ?_
    rintro (⟨i, hi, -⟩ | ⟨hb', -⟩)
    · exact hno i hi
    · cases hb.symm.trans hb'

/-! ## The flags are written and not read (R20, R22) -/

/-- The state with the three flags at given values. -/
def State.withFlags (s : State) (v j e : Bool) : State := { s with rndValid := v, jumpDone := j, errIllegal := e }

/-- An engine step overwrites the pulses and carries err_illegal along. -/
theorem engineStep_withFlags (s : State) (v j e : Bool) :
    (s.withFlags v j e).engineStep = { s.engineStep with errIllegal := e } := by
  by_cases hk : s.k = 127#7
  · rw [engineStep_commit hk, engineStep_commit (s := s.withFlags v j e) hk]
    rfl
  · rw [engineStep_continue hk, engineStep_continue (s := s.withFlags v j e) hk]
    rfl

/-- Whatever the flags hold, a command does the same to everything but err_illegal. -/
theorem exec_withFlags {i : Instr} {s t : State} (v j e : Bool) (h : exec i s = .next t) :
    ∃ e', exec i (s.withFlags v j e) = .next { t with errIllegal := e' } := by
  cases i <;> obtain rfl := Host.Outcome.next.inj h
  case illegal => exact ⟨true, rfl⟩
  case init | next | jump | jump32 | jump64 | jump96 | load => exact ⟨e, rfl⟩

/-- Whatever the flags hold, an edge does the same to everything but err_illegal. -/
theorem step_withFlags {s t : State} (v j e : Bool) (h : step s = .next t) :
    ∃ e', step (s.withFlags v j e) = .next { t with errIllegal := e' } := by
  obtain ⟨hr, -, rfl⟩ | ⟨hx, hb, -, -, rfl⟩ | ⟨i, ha, -, he⟩ | ⟨hr, hv, hb, -, -, rfl⟩ := step_next_kinds h
  · exact ⟨false, step_of_resetsNext (s := s.withFlags v j e) hr⟩
  · exact ⟨e, (step_of_busy (s := s.withFlags v j e) hx hb).trans
      (congrArg Host.Outcome.next (engineStep_withFlags s.dropSample v j e))⟩
  · obtain ⟨e', he'⟩ := exec_withFlags v j e he
    exact ⟨e', (step_of_acceptsNext (s := s.withFlags v j e) ha).trans he'⟩
  · exact ⟨e, step_of_idle (s := s.withFlags v j e) hr hv hb⟩

/-- Settles O39: of the four kinds of edge, reset clears the bit, the reserved opcode sets it, and every other edge
keeps it; acceptance looks at the ports and at busy, and no edge reads the bit. -/
theorem errIllegalSticky : Obligations.ErrIllegalSticky := by
  refine ⟨fun s t h => ⟨fun hr => ?_, fun hnr => ?_⟩, fun s i e => Iff.rfl,
    fun s t e h => step_withFlags s.rndValid s.jumpDone e h⟩
  · rw [eq_resetEdge_of_resetsNext hr h]; rfl
  · obtain ⟨hr, -, -⟩ | ⟨-, -, -, hno, rfl⟩ | ⟨i, ha, -, he⟩ | ⟨-, -, -, -, hno, rfl⟩ := step_next_kinds h
    · exact absurd hr hnr
    · simp [hno]
    · rw [exec_errIllegal he, ha.eq_iff, State.dropSample_errIllegal]
    · simp [hno]

/-! ## The output ports (R40) -/

/-- Two states show the same outputs exactly when the visible registers agree. -/
theorem outputs_eq_iff (s t : State) (rst : Bool) : s.outputs rst = t.outputs rst ↔
    s.gen = t.gen ∧ s.rndOut = t.rndOut ∧ s.rndValid = t.rndValid ∧ s.busy = t.busy ∧ s.jumpDone = t.jumpDone ∧
      s.errIllegal = t.errIllegal := by
  constructor
  · intro h
    exact ⟨State.gen_ext (congrArg Outputs.stateS0 h) (congrArg Outputs.stateS1 h), congrArg Outputs.rndOut h,
      congrArg Outputs.rndValid h, congrArg Outputs.busy h, congrArg Outputs.jumpDone h,
      congrArg Outputs.errIllegal h⟩
  · rintro ⟨hgen, hout, hvalid, hbusy, hdone, herr⟩
    obtain ⟨h0, h1⟩ := StatePair.mk.inj hgen
    simp only [State.outputs, State.cmdReady, State.zeroState, h0, h1, hout, hvalid, hbusy, hdone, herr]

/-- Settles O43: the ports are the registers by definition, and the two computed ones are functions of them. -/
theorem outputPorts : Obligations.OutputPorts :=
  ⟨fun s _ => ⟨rfl, rfl, rfl, rfl, rfl, rfl, rfl, by simp [State.outputs, State.zeroState], rfl⟩,
    fun _ _ _ => rfl, outputs_eq_iff⟩

/-! ## The engine registers while busy = 0 (R23)

`SameVisible` is a bisimulation: each operation of an edge keeps it, so each edge does, so each run does. -/

namespace SameVisible

variable {s t : State}

protected theorem refl (s : State) : SameVisible s s :=
  ⟨rfl, rfl, rfl, rfl, rfl, rfl, rfl, rfl, fun _ => ⟨rfl, rfl, rfl, rfl⟩⟩

theorem sample_eq (h : SameVisible s t) : s.sample = t.sample :=
  congrArg (fun pins => pins.headD PortSample.idle) h.pins

theorem outputs_eq (h : SameVisible s t) (rst : Bool) : s.outputs rst = t.outputs rst :=
  (outputs_eq_iff s t rst).mpr ⟨h.gen, h.rndOut, h.rndValid, h.busy, h.jumpDone, h.errIllegal⟩

/-- While a jump runs, every register is compared. -/
theorem eq_of_busy (h : SameVisible s t) (hb : s.busy = true) : s = t := by
  obtain ⟨hgen, hout, hvalid, hbusy, hdone, herr, hseed, hpins, hengine⟩ := h
  obtain ⟨hp, hk, hwork, hacc⟩ := hengine hb
  obtain ⟨h0, h1⟩ := StatePair.mk.inj hgen
  obtain ⟨hw0, hw1⟩ := StatePair.mk.inj hwork
  obtain ⟨ht0, ht1⟩ := StatePair.mk.inj hacc
  cases s
  cases t
  rw [State.mk.injEq]
  exact ⟨h0, h1, hout, hvalid, hbusy, hdone, herr, hp, hk, hw0, hw1, ht0, ht1, hseed, hpins⟩

theorem dropSample (h : SameVisible s t) : SameVisible s.dropSample t.dropSample :=
  { h with pins := congrArg List.tail h.pins }

theorem clearPulses (h : SameVisible s t) : SameVisible s.clearPulses t.clearPulses :=
  { h with rndValid := rfl, jumpDone := rfl }

theorem raiseIllegal (h : SameVisible s t) : SameVisible s.raiseIllegal t.raiseIllegal :=
  { h with errIllegal := rfl }

theorem setGen (h : SameVisible s t) (g : StatePair) : SameVisible (s.setGen g) (t.setGen g) :=
  { h with gen := rfl }

/-- A jump starts the engine from registers that are compared. -/
theorem startJump (h : SameVisible s t) (p : GfPoly) : SameVisible (s.startJump p) (t.startJump p) :=
  { h.clearPulses with busy := rfl, engine := fun _ => ⟨rfl, rfl, h.gen, rfl⟩ }

theorem resetEdge_eq (h : SameVisible s t) : s.resetEdge = t.resetEdge := by
  rw [State.resetEdge, State.resetEdge, h.resetSeed, h.pins]

/-- Each command reads no engine register. -/
theorem exec_next {s' : State} {i : Instr} (h : SameVisible s t) (he : exec i s = .next s') :
    ∃ t', exec i t = .next t' ∧ SameVisible s' t' := by
  cases i <;> obtain rfl := Host.Outcome.next.inj he
  case illegal => exact ⟨_, rfl, h.clearPulses.raiseIllegal⟩
  case init seed => exact ⟨_, rfl, h.clearPulses.setGen _⟩
  case next =>
    rw [h.gen]
    exact ⟨_, rfl, { h.clearPulses.setGen (stepState t.gen) with rndOut := rfl, rndValid := rfl }⟩
  case load d0 d1 => exact ⟨_, rfl, h.clearPulses.setGen _⟩
  case jump | jump32 | jump64 | jump96 => exact ⟨_, rfl, h.startJump _⟩

/-- One edge: a running engine steps from equal states, and no other edge reads the engine registers. -/
theorem step_next {s' : State} (h : SameVisible s t) (hs : step s = .next s') :
    ∃ t', step t = .next t' ∧ SameVisible s' t' := by
  have hsample := h.sample_eq
  obtain ⟨hr, -, rfl⟩ | ⟨hx, hb, -, -, rfl⟩ | ⟨i, ha, -, he⟩ | ⟨hr, hv, hb, -, -, rfl⟩ := step_next_kinds hs
  · rw [State.ResetsNext, hsample] at hr
    exact ⟨_, step_of_resetsNext hr, h.dropSample.resetEdge_eq ▸ .refl _⟩
  · obtain rfl := h.eq_of_busy hb
    exact ⟨_, hs, .refl _⟩
  · rw [State.AcceptsNext, hsample, h.busy] at ha
    obtain ⟨t', ht', hst⟩ := h.dropSample.exec_next he
    exact ⟨t', (step_of_acceptsNext ha).trans ht', hst⟩
  · rw [hsample] at hr hv
    exact ⟨_, step_of_idle hr hv (h.busy ▸ hb), h.dropSample.clearPulses⟩

theorem runsTo {n : Nat} {s' : State} (h : SameVisible s t) (hs : RunsTo n s s') :
    ∃ t', RunsTo n t t' ∧ SameVisible s' t' := by
  induction n generalizing s t with
  | zero =>
    obtain rfl := (runsTo_zero_iff s s').mp hs
    exact ⟨t, (runsTo_zero_iff t t).mpr rfl, h⟩
  | succ n ih =>
    obtain ⟨u, hsu, hus⟩ := (runsTo_succ_iff n s s').mp hs
    obtain ⟨v, htv, huv⟩ := h.step_next hsu
    obtain ⟨t', hvt, hst⟩ := ih huv hus
    exact ⟨t', (runsTo_succ_iff n t t').mpr ⟨v, htv, hvt⟩, hst⟩

end SameVisible

/-- Settles O55: `SameVisible` is kept along every run, and fixes the outputs. -/
theorem idleEngineInvisible : Obligations.IdleEngineInvisible := by
  intro n s t s' h hs
  obtain ⟨t', ht', hst⟩ := h.runsTo hs
  exact ⟨t', ht', hst, hst.outputs_eq⟩

end Sys2Proof.Machine
end

section
/-! SUPPORT. The command word (R43 to R46) and the commands a step runs (R42): the packed word's layout, decoding after
encoding, the opcode table, and which ports a command's edge looks at (R44). -/

namespace Sys2Proof

/-! ## The opcode map and the fields (R44, R45) -/

@[simp] theorem toBits_ofBits (b : BitVec 3) : (Opcode.ofBits b).toBits = b := by
  revert b
  decide

@[simp] theorem opcode_decodeFields (f : CommandFields) : (decodeFields f).opcode = Opcode.ofBits f.op :=
  opcode_instr _ _ _

@[simp] theorem decodeFields_encodeFields (i : Instr) : decodeFields (encodeFields i) = i := by
  cases i <;> rfl

/-- data0 is used by ops 001, 011 and 111 (R44). -/
theorem usesData0_ofBits_iff (b : BitVec 3) : (Opcode.ofBits b).usesData0 = true ↔ b = 1 ∨ b = 3 ∨ b = 7 := by
  revert b
  decide

/-- data1 is used by ops 011 and 111 (R44). -/
theorem usesData1_ofBits_iff (b : BitVec 3) : (Opcode.ofBits b).usesData1 = true ↔ b = 3 ∨ b = 7 := by
  revert b
  decide

theorem opcode_eq_illegal_iff (i : Instr) : i.opcode = .illegal ↔ i = .illegal := by
  cases i <;> simp [Instr.opcode]

/-- Encoding a decoded command keeps the op and the used operands, and writes 0 for the others. -/
theorem encodeFields_instr (o : Opcode) (d0 d1 : Word) :
    encodeFields (o.instr d0 d1) =
      ⟨o.toBits, if o.usesData0 then d0 else 0, if o.usesData1 then d1 else 0⟩ := by
  cases o <;> rfl

theorem encodeFields_decodeFields (f : CommandFields) :
    encodeFields (decodeFields f) =
      ⟨f.op, if f.op = 1 ∨ f.op = 3 ∨ f.op = 7 then f.data0 else 0,
        if f.op = 3 ∨ f.op = 7 then f.data1 else 0⟩ := by
  rw [decodeFields, encodeFields_instr, toBits_ofBits]
  simp only [usesData0_ofBits_iff, usesData1_ofBits_iff]

/-- A command is its three encoded fields. -/
theorem encodeFields_injective : Function.Injective encodeFields :=
  Function.LeftInverse.injective decodeFields_encodeFields

theorem ite_zero_eq_ite_zero_iff {c : Prop} [Decidable c] (a b : Word) :
    ((if c then a else 0) = if c then b else 0) ↔ (c → a = b) := by
  by_cases hc : c <;> simp [hc]

theorem decodeFields_eq_iff (f g : CommandFields) :
    decodeFields f = decodeFields g ↔
      f.op = g.op ∧ (f.op = 1 ∨ f.op = 3 ∨ f.op = 7 → f.data0 = g.data0) ∧
        (f.op = 3 ∨ f.op = 7 → f.data1 = g.data1) := by
  rw [← encodeFields_injective.eq_iff, encodeFields_decodeFields, encodeFields_decodeFields,
    CommandFields.mk.injEq]
  refine and_congr_right fun hop => ?_
  rw [← hop, ite_zero_eq_ite_zero_iff, ite_zero_eq_ite_zero_iff]

/-! ## The packed word (R43) -/

theorem pack_toNat (f : CommandFields) :
    f.pack.toNat = f.data1.toNat * 2 ^ 67 + f.data0.toNat * 2 ^ 3 + f.op.toNat := by
  rw [CommandFields.pack, BitVec.toNat_append, BitVec.toNat_append, ← Nat.shiftLeft_add_eq_or_of_lt f.data0.isLt,
    ← Nat.shiftLeft_add_eq_or_of_lt f.op.isLt, Nat.shiftLeft_eq, Nat.shiftLeft_eq]
  ring

theorem pack_unpack (w : BitVec 131) : (CommandFields.unpack w).pack = w := by
  apply BitVec.eq_of_toNat_eq
  rw [pack_toNat]
  simp only [CommandFields.unpack, BitVec.extractLsb'_toNat, Nat.shiftRight_eq_div_pow]
  omega

theorem decodeWord_encode (i : Instr) : decodeWord (encode i) = i := by
  rw [decodeWord, encode, unpack_pack, decodeFields_encodeFields]

/-- A number below 2^131 is the command word it writes. -/
theorem decodeTableWord_toNat (w : BitVec 131) : decodeTableWord 131 w.toNat = some (decodeWord w) := by
  simp [decodeTableWord, tableWord, Nat.mod_eq_of_lt w.isLt, w.isLt]

/-- Settles O1: the fields of an encoded command decode to it, and each of the three readings gives those fields. -/
theorem decodeEncodeRoundTrip : Obligations.DecodeEncodeRoundTrip := by
  intro i _
  refine ⟨decodeWord_encode i, ?_, ?_⟩
  · rw [presentInstr, decodePorts_present, decodeFields_encodeFields]
  · rw [decodeTableWord_toNat, decodeWord_encode]

/-- Settles O2: `encodeFields` inverts the decoder up to the ignored operands, and is injective. -/
theorem encodeOfDecodeZeroesIgnored : Obligations.EncodeOfDecodeZeroesIgnored :=
  ⟨fun f => congrArg CommandFields.pack (encodeFields_decodeFields f), decodeFields_eq_iff⟩

/-- Settles O5: `unpack_pack` is the model's own law; the layout gives the converse. -/
theorem packedWordLayout : Obligations.PackedWordLayout :=
  ⟨pack_toNat, unpack_pack, pack_unpack⟩

/-- Settles O6: nine closed facts. -/
theorem listedWordsDecode : Obligations.ListedWordsDecode := by
  unfold Obligations.ListedWordsDecode
  decide

/-! ## The opcode table (R45) -/

/-- The table's row of a command: its op value over the mask of the op field. -/
def Opcode.row (o : Opcode) : OpcodeRow := ⟨o, 0x7#131, o.toBits.setWidth 131⟩

theorem opcodeTable_eq_map_row :
    opcodeTable = [Opcode.illegal, .init, .next, .jump, .jump32, .jump64, .jump96, .load].map Opcode.row := by
  decide

theorem mem_opcodeTable_iff (r : OpcodeRow) : r ∈ opcodeTable ↔ ∃ o : Opcode, o.row = r := by
  rw [opcodeTable_eq_map_row, List.mem_map]
  exact exists_congr fun o => and_iff_right (by cases o <;> decide)

/-- Under the mask a word is its op field. -/
theorem and_opMask_toNat (w : BitVec 131) : (w &&& 0x7#131).toNat = w.toNat % 8 := by
  rw [BitVec.toNat_and]
  exact Nat.and_two_pow_sub_one_eq_mod w.toNat 3

theorem unpack_op_toNat (w : BitVec 131) : (CommandFields.unpack w).op.toNat = w.toNat % 8 := by
  simp [CommandFields.unpack]

/-- A word matches the row of the opcode in its op field and no other. -/
theorem row_matches_iff (o : Opcode) (w : BitVec 131) :
    o.row.matches w = true ↔ Opcode.ofBits (CommandFields.unpack w).op = o := by
  have hop : (o.toBits.setWidth 131).toNat = o.toBits.toNat := by cases o <;> rfl
  calc o.row.matches w = true ↔ w &&& 0x7#131 = o.toBits.setWidth 131 := beq_iff_eq
    _ ↔ (CommandFields.unpack w).op = o.toBits := by
      rw [← BitVec.toNat_inj, ← BitVec.toNat_inj, and_opMask_toNat, unpack_op_toNat, hop]
    _ ↔ Opcode.ofBits (CommandFields.unpack w).op = o :=
      ⟨fun h => h ▸ ofBits_toBits o, fun h => h ▸ (toBits_ofBits _).symm⟩

/-- Settles O4: the rows are those of the eight opcodes, and a word matches the row of its op field alone. -/
theorem opcodeMapTotal : Obligations.OpcodeMapTotal := by
  refine ⟨by decide, fun w => ⟨⟨(decodeWord w).opcode.row, ⟨?_, ?_⟩, rfl, ?_⟩, ?_, ?_⟩⟩
  · exact (mem_opcodeTable_iff _).mpr ⟨_, rfl⟩
  · exact (row_matches_iff _ w).mpr (opcode_decodeFields _).symm
  · intro r hr hw
    obtain ⟨o, rfl⟩ := (mem_opcodeTable_iff r).mp hr
    rw [decodeWord, opcode_decodeFields, (row_matches_iff o w).mp hw]
  · rw [decodeWord, opcode_decodeFields, toBits_ofBits, unpack_op_toNat]
  · rw [← opcode_eq_illegal_iff, decodeWord, opcode_decodeFields]
    exact ⟨fun h => (toBits_ofBits _).symm.trans (congrArg Opcode.toBits h), fun h => congrArg Opcode.ofBits h⟩

namespace Machine

/-! ## The ports an edge looks at (R42, R44, R99) -/

/-- The decoder on the ports reads the op and the operands that the op uses. -/
theorem decodePorts_congr {x y : PortSample} (hop : x.cmdOp = y.cmdOp)
    (h0 : ∀ op, x.cmdOp = some op → (Opcode.ofBits op).usesData0 = true → x.cmdData0 = y.cmdData0)
    (h1 : ∀ op, x.cmdOp = some op → (Opcode.ofBits op).usesData1 = true → x.cmdData1 = y.cmdData1) :
    decodePorts x = decodePorts y := by
  unfold decodePorts
  rw [← hop]
  cases hx : x.cmdOp with
  | none => rfl
  | some op =>
    specialize h0 op hx
    specialize h1 op hx
    simp only [decodeFields]
    cases ho : Opcode.ofBits op <;> rw [ho] at h0 h1
    case illegal | next | jump32 | jump64 | jump96 => rfl
    case init => rw [h0 rfl]; rfl
    case jump | load => rw [h0 rfl, h1 rfl]

/-- The command fields reach an edge through the decoder alone. -/
theorem tick_congr {x y : PortSample} (s : State) (hrst : x.rst = y.rst) (hvalid : x.cmdValid = y.cmdValid)
    (hdecode : decodePorts x = decodePorts y) : tick x s = tick y s := by
  unfold tick
  rw [hrst, hvalid, hdecode]

/-- JUMP's polynomial has p0 in the low-order half (R8, R44). -/
theorem polyBit_polyOperand (p0 p1 : Word) (i : Nat) :
    polyBit (polyOperand p0 p1) i = if i < 64 then p0.getLsbD i else p1.getLsbD (i - 64) := by
  show (p1 ++ p0).getLsbD i = _
  rw [BitVec.getLsbD_append]

/-- Settles O3: an edge reads the ports through `decodePorts`, which reads the used operands alone. -/
theorem operandUse : Obligations.OperandUse := by
  refine ⟨fun _ _ => ⟨rfl, rfl, rfl, rfl, rfl, rfl, rfl, rfl⟩, polyBit_polyOperand,
    fun x y s hrst hvalid hop h0 h1 => tick_congr s hrst hvalid (decodePorts_congr hop ?_ ?_)⟩
  · intro op hx hused
    rw [usesData0_ofBits_iff] at hused
    exact h0 (by simpa [hx] using hused)
  · intro op hx hused
    rw [usesData1_ofBits_iff] at hused
    exact h1 (by simpa [hx] using hused)

/-! ## cmd_ready and acceptance (R42) -/

theorem cmdReady_iff (s : State) (rst : Bool) : s.cmdReady rst = true ↔ rst = false ∧ s.busy = false := by
  simp [State.cmdReady]

/-- The edge that samples `x` is a step of the block with `x` as its next sample. -/
theorem step_cons_pins (x : PortSample) (s : State) : step { s with pins := x :: s.pins } = tick x s := rfl

/-- What an edge does while cmd_ready is 0: a reset or an engine step, from the level of rst alone. -/
theorem tick_of_not_cmdReady {x : PortSample} {s : State} {rst : Bool} (hready : s.cmdReady rst = false)
    (hr : x.rst = some rst) (hv : x.cmdValid.isSome = true) :
    tick x s = .next (if rst then s.resetEdge else s.engineStep) := by
  rw [← step_cons_pins]
  cases rst with
  | true => exact step_of_resetsNext ⟨hr, hv⟩
  | false => exact step_of_busy ⟨hr, hv⟩ (by simpa [State.cmdReady] using hready)

theorem acceptsNext_iff_cmdReady (s : State) (i : Instr) :
    s.AcceptsNext i ↔ s.sample.cmdValid = some true ∧
      (∃ rst, s.sample.rst = some rst ∧ s.cmdReady rst = true) ∧ decodePorts s.sample = .ok i := by
  simp only [State.AcceptsNext, Presents, cmdReady_iff]
  constructor
  · rintro ⟨⟨hr, hv, hd⟩, hb⟩
    exact ⟨hv, ⟨false, hr, rfl, hb⟩, hd⟩
  · rintro ⟨hv, ⟨_, hr, rfl, hb⟩, hd⟩
    exact ⟨⟨hr, hv, hd⟩, hb⟩

/-- Settles O42: while cmd_ready is 0 the edge is a reset or an engine step, and `exec_busy` says which commands set
busy. -/
theorem commandReady : Obligations.CommandReady := by
  refine ⟨cmdReady_iff, fun s rst x y hready hx hy hvx hvy => ?_, acceptsNext_iff_cmdReady, fun i s t h => ?_⟩
  · have hedge := tick_of_not_cmdReady hready hx hvx
    exact ⟨hedge.trans (tick_of_not_cmdReady hready hy hvy).symm, _, hedge⟩
  · have hbusy := exec_busy h
    exact ⟨fun hj => by rw [hbusy, hj, Bool.false_or], fun hj rst => by simp [State.cmdReady, hbusy, hj]⟩

/-! ## The command a step runs (R42, R97) -/

/-- A presented word is accepted at the next edge (notes/assumptions/7.md). -/
theorem presentWord_acceptsNext (s : State) (w : BitVec 131) : (s.presentWord w).AcceptsNext (decodeWord w) :=
  ⟨presents_present _, rfl⟩

theorem step_presentWord (s : State) (w : BitVec 131) :
    step (s.presentWord w) = exec (decodeWord w) { s with busy := false, pins := s.pins.tail } :=
  step_of_acceptsNext (presentWord_acceptsNext s w)

/-- A number that is a command's is that of the word it places. -/
theorem decodeWord_of_decodeTableWord {nbits w : Nat} {i : Instr} (h : decodeTableWord nbits w = some i) :
    decodeWord (BitVec.ofNat 131 (w % 2 ^ nbits)) = i := by
  unfold decodeTableWord tableWord at h
  split at h
  · exact Option.some.inj h
  · cases h

/-- Settles O7: acceptance makes the step the command's meaning, and a placed word is accepted. -/
theorem stepRunsPresentedCommand : Obligations.StepRunsPresentedCommand := by
  refine ⟨fun _ _ => step_of_acceptsNext, step_presentWord, fun s nbits w i h => ?_⟩
  rw [State.withFetchWord, step_presentWord, decodeWord_of_decodeTableWord h]

/-- Settles O50: `exec` is total, writes neither the parameter nor the list, and leaves the pulses of its command. -/
theorem everyCommandCompletes : Obligations.EveryCommandCompletes := by
  refine fun i s => ⟨?_, step_of_acceptsNext⟩
  obtain ⟨t, ht⟩ := exec_total i s
  obtain ⟨hseed, hpins⟩ := exec_keeps_resetSeed_and_pins ht
  obtain ⟨hvalid, hdone⟩ := exec_pulses ht
  exact ⟨t, ht, hseed, hpins, hdone, hvalid⟩

end Machine

end Sys2Proof
end

section
/-! SUPPORT. Jumps as polynomials in T: a jump is linear in the state and in the polynomial (R59, R63), C(x) annihilates T
(R65), so a product of polynomials modulo C(x) is a composition of jumps (R68). -/

namespace Sys2Proof.Machine

/-! ## T is linear over GF(2) (R59) -/

theorem rotl_xor (a b : Word) (k : Nat) : rotl (a ^^^ b) k = rotl a k ^^^ rotl b k := by
  apply BitVec.eq_of_getLsbD_eq
  intro i hi
  simp only [BitVec.getLsbD_xor, rotlMovesBitsUp.1 _ k i hi]

theorem stepState_xorPair (a b : StatePair) : stepState (xorPair a b) = xorPair (stepState a) (stepState b) := by
  simp only [stepState, xorPair, rotl_xor, BitVec.shiftLeft_xor_distrib, StatePair.mk.injEq]
  constructor <;> ac_rfl

theorem stepState_zero : stepState .zero = .zero := by
  decide

theorem iterate_stepState_xorPair (n : Nat) (a b : StatePair) :
    stepState^[n] (xorPair a b) = xorPair (stepState^[n] a) (stepState^[n] b) := by
  induction n with
  | zero => rfl
  | succ n ih => simp only [Function.iterate_succ_apply', ih, stepState_xorPair]

theorem stepState_iterate_comm (n : Nat) (s : StatePair) :
    stepState (stepState^[n] s) = stepState^[n] (stepState s) :=
  Function.Commute.self_iterate stepState n s

/-! ## A jump is linear in the polynomial and in the state, and commutes with T (R63) -/

theorem xorPair_xorPair_comm (a b c d : StatePair) :
    xorPair (xorPair a b) (xorPair c d) = xorPair (xorPair a c) (xorPair b d) := by
  simp only [xorPair, StatePair.mk.injEq]
  constructor <;> ac_rfl

theorem foldBit_xor (x y : Bool) (a b w : StatePair) :
    foldBit (x ^^ y) (xorPair a b) w = xorPair (foldBit x a w) (foldBit y b w) := by
  cases x <;> cases y
  · rfl
  · exact xorPair_assoc a b w
  · exact (xorPair_assoc a b w).trans ((congrArg _ (xorPair_comm b w)).trans (xorPair_assoc a w b).symm)
  · simpa using (xorPair_xorPair_comm a w b w).symm

theorem foldBit_xorPair (x : Bool) (a b v w : StatePair) :
    foldBit x (xorPair a b) (xorPair v w) = xorPair (foldBit x a v) (foldBit x b w) := by
  cases x
  · rfl
  · exact xorPair_xorPair_comm a b v w

theorem stepState_foldBit (x : Bool) (a w : StatePair) :
    stepState (foldBit x a w) = foldBit x (stepState a) (stepState w) := by
  cases x
  · rfl
  · exact stepState_xorPair a w

theorem jumpState_xor (s : StatePair) (p q : GfPoly) :
    jumpState s (p ^^^ q) = xorPair (jumpState s p) (jumpState s q) := by
  suffices h : ∀ n, (jumpLoop (p ^^^ q) s n).acc = xorPair (jumpLoop p s n).acc (jumpLoop q s n).acc by
    simpa only [jumpState_eq] using h 128
  intro n
  induction n with
  | zero => exact (xorPair_self _).symm
  | succ n ih =>
    rw [jumpLoop_acc_succ, ih, polyBit, BitVec.getLsbD_xor, foldBit_xor, ← jumpLoop_acc_succ, ← jumpLoop_acc_succ]

theorem jumpState_xorPair (a b : StatePair) (p : GfPoly) :
    jumpState (xorPair a b) p = xorPair (jumpState a p) (jumpState b p) := by
  suffices h : ∀ n, (jumpLoop p (xorPair a b) n).acc = xorPair (jumpLoop p a n).acc (jumpLoop p b n).acc by
    simpa only [jumpState_eq] using h 128
  intro n
  induction n with
  | zero => exact (xorPair_self _).symm
  | succ n ih =>
    rw [jumpLoop_acc_succ, ih, iterate_stepState_xorPair, foldBit_xorPair, ← jumpLoop_acc_succ, ← jumpLoop_acc_succ]

theorem jumpState_stepState (s : StatePair) (p : GfPoly) : jumpState (stepState s) p = stepState (jumpState s p) := by
  suffices h : ∀ n, (jumpLoop p (stepState s) n).acc = stepState (jumpLoop p s n).acc by
    simpa only [jumpState_eq] using h 128
  intro n
  induction n with
  | zero => exact stepState_zero.symm
  | succ n ih => rw [jumpLoop_acc_succ, ih, jumpLoop_acc_succ, stepState_foldBit, stepState_iterate_comm]

theorem iterate_stepState_zero (n : Nat) : stepState^[n] .zero = .zero :=
  Function.iterate_fixed stepState_zero n

theorem jumpState_zero_state (p : GfPoly) : jumpState .zero p = .zero := by
  have h := jumpState_xorPair .zero .zero p
  rwa [xorPair_self, xorPair_self] at h

theorem jumpState_zero_poly (s : StatePair) : jumpState s 0 = .zero := by
  have h := jumpState_xor s 0 0
  rwa [BitVec.xor_self, xorPair_self] at h

theorem jumpState_one (s : StatePair) : jumpState s 1 = s := by
  suffices h : ∀ n, (jumpLoop 1 s (n + 1)).acc = s by simpa only [jumpState_eq] using h 127
  intro n
  induction n with
  | zero => exact zero_xorPair s
  | succ n ih =>
    have hbit : polyBit 1 (n + 1) = false := by simp [polyBit]
    rw [jumpLoop_acc_succ, ih, hbit, foldBit_false]

/-! ## C(x) annihilates T (R65) -/

/-- What holds of 0 and of every single bit, and is kept by XOR, holds of every word. -/
theorem word_xor_induction {motive : Word → Prop} (zero : motive 0) (bit : ∀ i < 64, motive (.twoPow 64 i))
    (xor : ∀ a b, motive a → motive b → motive (a ^^^ b)) (w : Word) : motive w := by
  suffices h : ∀ n ≤ 64, ∀ v : Word, (∀ i, n ≤ i → v.getLsbD i = false) → motive v from
    h 64 le_rfl w fun i => w.getLsbD_of_ge i
  intro n
  induction n with
  | zero =>
    intro _ v hv
    rwa [show v = 0 from BitVec.eq_of_getLsbD_eq fun i _ => by simpa using hv i i.zero_le]
  | succ n ih =>
    intro hn v hv
    cases hvn : v.getLsbD n with
    | false =>
      refine ih (by omega) v fun i hi => ?_
      obtain rfl | hlt := hi.eq_or_lt
      · exact hvn
      · exact hv i hlt
    | true =>
      have hrest : motive (v ^^^ .twoPow 64 n) := by
        refine ih (by omega) _ fun i hi => ?_
        obtain rfl | hlt := hi.eq_or_lt
        · simp [hvn, Nat.lt_of_succ_le hn]
        · simp [hv i hlt, hlt.ne]
      have hv' : v = v ^^^ .twoPow 64 n ^^^ .twoPow 64 n := by
        rw [BitVec.xor_assoc, BitVec.xor_self, BitVec.xor_zero]
      rw [hv']
      exact xor _ _ hrest (bit n hn)

/-- On a single bit of s0, the 128 steps of the loop show it. -/
theorem jumpLoop_charPolyLow_twoPow :
    ∀ i < 64,
      (jumpLoop charPolyLow ⟨.twoPow 64 i, 0⟩ 128).acc = (jumpLoop charPolyLow ⟨.twoPow 64 i, 0⟩ 128).work := by
  decide +kernel

/-- The two sides are linear in the state and commute with T, and the single bits of s0 and their images under T span
every state. -/
theorem jumpState_charPolyLow (s : StatePair) : jumpState s charPolyLow = stepState^[128] s := by
  have hleft (a : Word) : jumpState ⟨a, 0⟩ charPolyLow = stepState^[128] ⟨a, 0⟩ := by
    induction a using word_xor_induction with
    | zero => rw [jumpState_zero_state, iterate_stepState_zero]
    | bit i hi => rw [jumpState_eq, jumpLoop_charPolyLow_twoPow i hi, jumpLoop_work]
    | xor a b ha hb =>
      rw [show (⟨a ^^^ b, 0⟩ : StatePair) = xorPair ⟨a, 0⟩ ⟨b, 0⟩ by simp [xorPair], jumpState_xorPair,
        iterate_stepState_xorPair, ha, hb]
  have hspan : s = xorPair ⟨s.s0 ^^^ s.s1, 0⟩ (stepState ⟨s.s1, 0⟩) := by
    simp [stepState, xorPair, rotl]
  rw [hspan, jumpState_xorPair, jumpState_stepState, hleft, hleft, iterate_stepState_xorPair, stepState_iterate_comm]

/-! ## Products of polynomials are compositions of jumps (R65, R68) -/

/-- The jump loop on x * p, before the reduction, is one iteration behind and one step ahead. -/
theorem jumpLoop_shiftLeft_acc (s : StatePair) (p : GfPoly) {n : Nat} (hn : n < 128) :
    (jumpLoop (p <<< 1) s (n + 1)).acc = stepState (jumpLoop p s n).acc := by
  induction n with
  | zero =>
    have hbit : polyBit (p <<< 1) 0 = false := by simp [polyBit]
    rw [jumpLoop_acc_succ, hbit]
    exact stepState_zero.symm
  | succ n ih =>
    have hbit : polyBit (p <<< 1) (n + 1) = polyBit p n := by simp [polyBit, hn, Nat.lt_of_succ_lt hn]
    rw [jumpLoop_acc_succ, ih (by omega), hbit, jumpLoop_acc_succ, stepState_foldBit, Function.iterate_succ_apply']

/-- Multiplying by x modulo C(x) is one step more. -/
theorem jumpState_polyMulX (s : StatePair) (p : GfPoly) : jumpState s (polyMulX p) = stepState (jumpState s p) := by
  have hshift : jumpState s (p <<< 1) = stepState (jumpLoop p s 127).acc := by
    rw [jumpState_eq, jumpLoop_shiftLeft_acc s p (by decide)]
  have hstep : stepState (jumpState s p) = foldBit p.msb (jumpState s (p <<< 1)) (stepState^[128] s) := by
    rw [jumpState_eq s p, jumpLoop_acc_succ p s 127, stepState_foldBit, ← hshift, BitVec.msb_eq_getLsbD_last,
      Function.iterate_succ_apply' stepState 127]
  rw [hstep, polyMulX]
  cases p.msb with
  | false => rw [if_neg Bool.false_ne_true, foldBit_false]
  | true => rw [if_pos rfl, jumpState_xor, jumpState_charPolyLow, foldBit_true]

/-- The product's loop runs the jump loop of its second factor from the state that the first one jumps to. -/
theorem jumpState_polyMulLoop (s : StatePair) (a b : GfPoly) (n : Nat) :
    jumpState s (polyMulLoop a b n).1 = (jumpLoop b (jumpState s a) n).acc ∧
      jumpState s (polyMulLoop a b n).2 = stepState^[n] (jumpState s a) := by
  induction n with
  | zero =>
    rw [polyMulLoop, jumpState_zero_poly, jumpLoop_zero]
    exact ⟨rfl, rfl⟩
  | succ n ih =>
    obtain ⟨hsum, hpow⟩ := ih
    refine ⟨?_, ?_⟩
    · rw [jumpLoop_acc_succ, polyMulLoop, ← hsum, ← hpow]
      cases polyBit b n with
      | false => rw [if_neg Bool.false_ne_true, foldBit_false]
      | true => rw [if_pos rfl, jumpState_xor, foldBit_true]
    · rw [polyMulLoop, jumpState_polyMulX, hpow, Function.iterate_succ_apply']

theorem jumpState_polyMul (s : StatePair) (a b : GfPoly) :
    jumpState s (polyMul a b) = jumpState (jumpState s a) b := by
  rw [polyMul_eq, (jumpState_polyMulLoop s a b 128).1, ← jumpState_eq]

end Sys2Proof.Machine
end

section
/-! SUPPORT. The pseudo-instructions (R49): the assembler's x^N mod C(x) is the polynomial of N steps, and a single bit
for N below the degree of C(x). -/

namespace Sys2Proof.Machine

/-! ## Powers by squaring -/

/-- Squaring with enough fuel for n's digits gives the polynomial of n steps. -/
theorem jumpState_polyXPowFuel {fuel n : Nat} (hn : n < 2 ^ fuel) (s : StatePair) :
    jumpState s (polyXPowFuel fuel n) = stepState^[n] s := by
  induction fuel generalizing n s with
  | zero =>
    obtain rfl : n = 0 := by omega
    exact jumpState_one s
  | succ fuel ih =>
    have hhalf : n / 2 < 2 ^ fuel := by omega
    have hsquare : jumpState s (polyMul (polyXPowFuel fuel (n / 2)) (polyXPowFuel fuel (n / 2))) =
        stepState^[n / 2 + n / 2] s := by
      rw [jumpState_polyMul, ih hhalf, ih hhalf, ← Function.iterate_add_apply]
    rw [polyXPowFuel]
    split
    · rw [jumpState_polyMulX, hsquare, ← Function.iterate_succ_apply' stepState]
      congr 2
      omega
    · rw [hsquare]
      congr 2
      omega

theorem jumpState_polyXPowFast (n : Nat) (s : StatePair) : jumpState s (polyXPowFast n) = stepState^[n] s :=
  jumpState_polyXPowFuel Nat.lt_log2_self s

/-! ## Powers below the degree of C(x) are single bits -/

theorem polyMulX_twoPow {m : Nat} (hm : m + 1 < 128) : polyMulX (.twoPow 128 m) = BitVec.twoPow 128 (m + 1) := by
  have hmsb : (BitVec.twoPow 128 m).msb = false := by
    have hne : 127 ≠ m := by omega
    simp [BitVec.msb_eq_getLsbD_last, hne]
  rw [polyMulX, hmsb, BitVec.twoPow_eq, BitVec.twoPow_eq, BitVec.shiftLeft_add]
  rfl

theorem iterate_polyMulX_twoPow {m n : Nat} (h : m + n < 128) :
    polyMulX^[n] (.twoPow 128 m) = BitVec.twoPow 128 (m + n) := by
  induction n with
  | zero => rfl
  | succ n ih => rw [Function.iterate_succ_apply', ih (by omega), polyMulX_twoPow (by omega), Nat.add_assoc]

theorem polyMulLoop_snd (a b : GfPoly) (n : Nat) : (polyMulLoop a b n).2 = polyMulX^[n] a := by
  induction n with
  | zero => rfl
  | succ n ih => rw [polyMulLoop, ih, Function.iterate_succ_apply']

/-- A factor that is a single bit picks one summand of the product's loop. -/
theorem polyMul_twoPow (a : GfPoly) {m : Nat} (hm : m < 128) : polyMul a (.twoPow 128 m) = polyMulX^[m] a := by
  suffices h : ∀ n, (polyMulLoop a (.twoPow 128 m) n).1 = if m < n then polyMulX^[m] a else 0 by
    rw [polyMul_eq, h, if_pos hm]
  intro n
  induction n with
  | zero => rfl
  | succ n ih =>
    have hbit : polyBit (.twoPow 128 m) n = decide (m = n) := by simp [polyBit, hm]
    rw [polyMulLoop, ih, polyMulLoop_snd, hbit]
    obtain hlt | rfl | hgt := Nat.lt_trichotomy m n
    · simp [hlt, hlt.ne, Nat.lt_succ_of_lt hlt]
    · simp
    · simp [hgt.not_gt, hgt.ne', (Nat.succ_le_of_lt hgt).not_gt]

theorem polyXPowFuel_eq_twoPow {fuel n : Nat} (hfuel : n < 2 ^ fuel) (hn : n < 128) :
    polyXPowFuel fuel n = .twoPow 128 n := by
  induction fuel generalizing n with
  | zero =>
    obtain rfl : n = 0 := by omega
    rfl
  | succ fuel ih =>
    have hsquare : polyMul (.twoPow 128 (n / 2)) (.twoPow 128 (n / 2)) = .twoPow 128 (n / 2 + n / 2) := by
      rw [polyMul_twoPow _ (by omega), iterate_polyMulX_twoPow (by omega)]
    rw [polyXPowFuel, ih (by omega) (by omega), hsquare]
    split
    · rw [polyMulX_twoPow (by omega)]
      congr 1
      omega
    · congr 1
      omega

/-! ## The pseudo-instructions -/

theorem polyOperand_extract (p : GfPoly) : polyOperand (p.extractLsb' 0 64) (p.extractLsb' 64 64) = p := by
  apply BitVec.eq_of_getLsbD_eq
  intro i hi
  rw [← polyBit, polyBit_polyOperand]
  split
  next hlow => simp [hlow]
  next hhigh =>
    have hsum : 64 + (i - 64) = i := by omega
    have hlt : i - 64 < 64 := by omega
    simp [hsum, hlt]

theorem genAfter_jump (p0 p1 : Word) (g : StatePair) :
    genAfter (.jump p0 p1) g = jumpState g (polyOperand p0 p1) := by
  rw [genAfter]

theorem genAfter_step (g : StatePair) : genAfter (expandPseudo .step) g = stepState g := by
  have hp : polyOperand 0x2 0x0 = polyMulX 1 := by decide
  rw [expandPseudo, genAfter_jump, hp, jumpState_polyMulX, jumpState_one]

theorem genAfter_jump0 (g : StatePair) : genAfter (expandPseudo .jump0) g = g := by
  have hp : polyOperand 0x1 0x0 = 1 := by decide
  rw [expandPseudo, genAfter_jump, hp, jumpState_one]

theorem genAfter_jumpN (n : Nat) (g : StatePair) : genAfter (expandPseudo (.jumpN n)) g = stepState^[n] g := by
  rw [expandPseudo, genAfter_jump, polyOperand_extract, jumpState_polyXPowFast]

/-- Settles O59: the polynomials 1 and x are no step and one step, and JUMPN's is N steps by squaring. -/
theorem pseudoInstructionEffects : Obligations.PseudoInstructionEffects := by
  refine ⟨genAfter_step, genAfter_jump0, genAfter_jumpN, fun n hn => ⟨_, _, rfl, ?_⟩, fun _ => rfl,
    fun ps hseed => ?_⟩
  · exact (polyOperand_extract _).trans (polyXPowFuel_eq_twoPow Nat.lt_log2_self hn)
  · cases ps with
    | step | jump0 | jumpN _ => rfl
    | seed s => exact absurd rfl (hseed s)

end Sys2Proof.Machine
end

section
/-! SUPPORT. The assembler reads back the source line it lays out (R48; notes/assumptions/11.md): hex literals, the
pieces between commas, and a line's mnemonic and operands. -/

namespace Sys2Proof.Machine

/-! ## Hex literals -/

theorem digitValue_hexDigit : ∀ n < 16, digitValue 16 (hexDigit n) = some n := by
  decide

/-- A character that neither separates nor starts a comment. -/
def isPlain (c : Char) : Bool := !isBlank c && c != ',' && c != ';'

theorem isPlain_iff (c : Char) : isPlain c = true ↔ isBlank c = false ∧ c ≠ ',' ∧ c ≠ ';' := by
  simp [isPlain, and_assoc]

theorem isPlain_hexDigit : ∀ n < 16, isPlain (hexDigit n) = true := by
  decide

theorem isPlain_of_mem_hexDigits {k n : Nat} {c : Char} (h : c ∈ hexDigits k n) : isPlain c = true := by
  induction k generalizing n with
  | zero => cases h
  | succ k ih =>
    rw [hexDigits, List.mem_append, List.mem_singleton] at h
    obtain h | rfl := h
    · exact ih h
    · exact isPlain_hexDigit _ (Nat.mod_lt n (by decide))

theorem hexDigits_length (k n : Nat) : (hexDigits k n).length = k := by
  induction k generalizing n with
  | zero => rfl
  | succ k ih => rw [hexDigits, List.length_append, ih, List.length_singleton]

theorem readDigits_append (base acc : Nat) (xs ys : List Char) :
    readDigits base acc (xs ++ ys) = (readDigits base acc xs).bind fun a => readDigits base a ys := by
  induction xs generalizing acc with
  | nil => rfl
  | cons x xs ih =>
    rw [List.cons_append, readDigits, readDigits]
    cases digitValue base x with
    | none => rfl
    | some d => exact ih _

/-- Reading k digits shifts the number read before by k places and adds the lowest k digits. -/
theorem readDigits_hexDigits (acc k n : Nat) :
    readDigits 16 acc (hexDigits k n) = some (acc * 16 ^ k + n % 16 ^ k) := by
  induction k generalizing n with
  | zero => simp [hexDigits, readDigits, Nat.mod_one]
  | succ k ih =>
    have hlast : readDigits 16 (acc * 16 ^ k + n / 16 % 16 ^ k) [hexDigit (n % 16)] =
        some ((acc * 16 ^ k + n / 16 % 16 ^ k) * 16 + n % 16) := by
      rw [readDigits, digitValue_hexDigit _ (Nat.mod_lt n (by decide))]
      rfl
    rw [hexDigits, readDigits_append, ih, Option.bind_some, hlast, Nat.pow_succ', Nat.mod_mul]
    congr 1
    ring

theorem readLiteral_hexWord (w : Word) : readLiteral (hexWord w) = some w.toNat := by
  have hne : (hexDigits 16 w.toNat).isEmpty = false := by
    rw [List.isEmpty_eq_false_iff, ← List.length_pos_iff, hexDigits_length]
    decide
  rw [hexWord, readLiteral, hne, if_neg Bool.false_ne_true, readDigits_hexDigits, Nat.zero_mul, Nat.zero_add,
    Nat.mod_eq_of_lt (show w.toNat < 16 ^ 16 from w.isLt)]

@[simp] theorem readWord_hexWord (w : Word) : readWord (hexWord w) = .ok w := by
  rw [readWord, readLiteral_hexWord]
  simp only [w.isLt, if_true, BitVec.ofNat_toNat, BitVec.setWidth_eq]

theorem isPlain_of_mem_hexWord {w : Word} {c : Char} (h : c ∈ hexWord w) : isPlain c = true := by
  rw [hexWord, List.mem_cons, List.mem_cons] at h
  obtain rfl | rfl | h := h
  · decide
  · decide
  · exact isPlain_of_mem_hexDigits h

theorem isBlank_of_mem_hexWord {w : Word} {c : Char} (h : c ∈ hexWord w) : isBlank c = false :=
  ((isPlain_iff c).mp (isPlain_of_mem_hexWord h)).1

theorem comma_notMem_hexWord (w : Word) : ',' ∉ hexWord w :=
  fun h => ((isPlain_iff ',').mp (isPlain_of_mem_hexWord h)).2.1 rfl

theorem semicolon_notMem_hexWord (w : Word) : ';' ∉ hexWord w :=
  fun h => ((isPlain_iff ';').mp (isPlain_of_mem_hexWord h)).2.2 rfl

theorem hexWord_ne_nil (w : Word) : hexWord w ≠ [] := List.cons_ne_nil _ _

/-! ## Blanks and separators -/

theorem dropWhile_isBlank_of_head {cs : List Char} (h : ∀ c ∈ cs.head?, isBlank c = false) :
    cs.dropWhile isBlank = cs := by
  cases cs with
  | nil => rfl
  | cons c cs => exact List.dropWhile_cons_of_neg (by simp [h c rfl])

/-- Text without a blank at either end has none to trim. -/
theorem trimBlanks_of_ends {cs : List Char} (hhead : ∀ c ∈ cs.head?, isBlank c = false)
    (hlast : ∀ c ∈ cs.getLast?, isBlank c = false) : trimBlanks cs = cs := by
  rw [trimBlanks, dropWhile_isBlank_of_head hhead, dropWhile_isBlank_of_head (by rwa [List.head?_reverse]),
    List.reverse_reverse]

theorem trimBlanks_blank_cons (cs : List Char) : trimBlanks (' ' :: cs) = trimBlanks cs := rfl

theorem trimBlanks_hexWord (w : Word) : trimBlanks (hexWord w) = hexWord w :=
  trimBlanks_of_ends (fun _ h => isBlank_of_mem_hexWord (List.mem_of_mem_head? h))
    (fun _ h => isBlank_of_mem_hexWord (List.mem_of_mem_getLast? h))

theorem splitAtChar_of_notMem {sep : Char} {cs : List Char} (h : sep ∉ cs) : splitAtChar sep cs = [cs] := by
  induction cs with
  | nil => rfl
  | cons c cs ih =>
    rw [List.mem_cons, not_or] at h
    obtain ⟨hc, hcs⟩ := h
    rw [splitAtChar, ih hcs]
    exact if_neg (by simpa using Ne.symm hc)

theorem splitAtChar_append_cons {sep : Char} {xs ys : List Char} (hx : sep ∉ xs) (hy : sep ∉ ys) :
    splitAtChar sep (xs ++ sep :: ys) = [xs, ys] := by
  induction xs with
  | nil =>
    rw [List.nil_append, splitAtChar, splitAtChar_of_notMem hy]
    exact if_pos (beq_self_eq_true sep)
  | cons x xs ih =>
    rw [List.mem_cons, not_or] at hx
    obtain ⟨hsep, hxs⟩ := hx
    rw [List.cons_append, splitAtChar, ih hxs]
    exact if_neg (by simpa using Ne.symm hsep)

theorem comma_notMem_blank_hexWord (w : Word) : ',' ∉ ' ' :: hexWord w :=
  List.not_mem_cons_of_ne_of_not_mem (by decide) (comma_notMem_hexWord w)

theorem operandTexts_hexWord (w : Word) : operandTexts (' ' :: hexWord w) = [hexWord w] := by
  rw [operandTexts, trimBlanks_blank_cons, trimBlanks_hexWord, List.isEmpty_eq_false_iff.mpr (hexWord_ne_nil w),
    if_neg Bool.false_ne_true, splitAtChar_of_notMem (comma_notMem_blank_hexWord w), List.map_singleton,
    trimBlanks_blank_cons, trimBlanks_hexWord]

/-- Text from a first character that is no blank to the end of a word has none to trim. -/
theorem trimBlanks_append_hexWord {pre : List Char} (w : Word) (hpre : ∀ c ∈ pre.head?, isBlank c = false) :
    trimBlanks (pre ++ hexWord w) = pre ++ hexWord w := by
  refine trimBlanks_of_ends (fun c h => ?_) (fun c h => ?_)
  · cases pre with
    | nil => exact isBlank_of_mem_hexWord (List.mem_of_mem_head? h)
    | cons x xs => exact hpre c h
  · rw [List.getLast?_append_of_ne_nil _ (hexWord_ne_nil w)] at h
    exact isBlank_of_mem_hexWord (List.mem_of_mem_getLast? h)

theorem operandTexts_two_hexWords (a b : Word) :
    operandTexts (' ' :: (hexWord a ++ [',', ' '] ++ hexWord b)) = [hexWord a, hexWord b] := by
  have htrim : trimBlanks (' ' :: (hexWord a ++ [',', ' '] ++ hexWord b)) = hexWord a ++ [',', ' '] ++ hexWord b := by
    rw [trimBlanks_blank_cons]
    refine trimBlanks_append_hexWord b fun c h => ?_
    rw [List.head?_append_of_ne_nil _ (hexWord_ne_nil a)] at h
    exact isBlank_of_mem_hexWord (List.mem_of_mem_head? h)
  have hsplit : splitAtChar ',' (' ' :: (hexWord a ++ [',', ' '] ++ hexWord b)) =
      [' ' :: hexWord a, ' ' :: hexWord b] := by
    have h := splitAtChar_append_cons (comma_notMem_blank_hexWord a) (comma_notMem_blank_hexWord b)
    simpa only [List.cons_append, List.nil_append, List.append_assoc] using h
  rw [operandTexts, htrim, List.isEmpty_eq_false_iff.mpr (List.append_ne_nil_of_right_ne_nil _ (hexWord_ne_nil b)),
    if_neg Bool.false_ne_true, hsplit, List.map_cons, List.map_singleton, trimBlanks_blank_cons, trimBlanks_blank_cons,
    trimBlanks_hexWord, trimBlanks_hexWord]

/-! ## Lines -/

/-- A line that ends in a word is read as its mnemonic's shape with the operands after the mnemonic. -/
theorem assembleLine_append_hexWord {name pre : List Char} {shape : Shape} (w : Word)
    (hshape : shapeOf name = some shape) (hname : name ≠ []) (hplain : name.all isPlain = true)
    (hpre : ';' ∉ pre) :
    assembleLine (name ++ ' ' :: (pre ++ hexWord w)) =
      (shape.line (operandTexts (' ' :: (pre ++ hexWord w)))).map some := by
  rw [List.all_eq_true] at hplain
  have hcomment : stripComment (name ++ ' ' :: (pre ++ hexWord w)) = name ++ ' ' :: (pre ++ hexWord w) := by
    rw [stripComment, List.takeWhile_eq_self_iff]
    simp only [List.mem_append, List.mem_cons, bne_iff_ne]
    rintro c (hc | rfl | hc | hc)
    · exact ((isPlain_iff c).mp (hplain c hc)).2.2
    · decide
    · exact ne_of_mem_of_not_mem hc hpre
    · exact ne_of_mem_of_not_mem hc (semicolon_notMem_hexWord w)
  have htrim : trimBlanks (name ++ ' ' :: (pre ++ hexWord w)) = name ++ ' ' :: (pre ++ hexWord w) := by
    have h := trimBlanks_append_hexWord (pre := name ++ ' ' :: pre) w fun c hc => by
      rw [List.head?_append_of_ne_nil _ hname] at hc
      exact ((isPlain_iff c).mp (hplain c (List.mem_of_mem_head? hc))).1
    rwa [List.append_assoc, List.cons_append] at h
  have hword : ∀ c ∈ name, (!isBlank c) = true := fun c hc => by
    rw [((isPlain_iff c).mp (hplain c hc)).1]
    rfl
  have hmnemonic : (name ++ ' ' :: (pre ++ hexWord w)).takeWhile (!isBlank ·) = name := by
    rw [List.takeWhile_append_of_pos hword, List.takeWhile_cons_of_neg (by decide), List.append_nil]
  have hoperands : (name ++ ' ' :: (pre ++ hexWord w)).dropWhile (!isBlank ·) = ' ' :: (pre ++ hexWord w) := by
    rw [List.dropWhile_append_of_pos hword, List.dropWhile_cons_of_neg (by decide)]
  have hbody : (name ++ ' ' :: (pre ++ hexWord w)).isEmpty = false :=
    List.isEmpty_eq_false_iff.mpr (List.append_ne_nil_of_left_ne_nil hname _)
  simp only [assembleLine, hcomment, htrim, hbody, Bool.false_eq_true, if_false, hmnemonic, hoperands, hshape]

theorem assembleLine_oneWord {name : List Char} {line : Word → AsmLine} (w : Word)
    (hshape : shapeOf name = some (.oneWord line)) (hname : name ≠ []) (hplain : name.all isPlain = true) :
    assembleLine (name ++ ' ' :: hexWord w) = .ok (some (line w)) := by
  have h := assembleLine_append_hexWord (pre := []) w hshape hname hplain List.not_mem_nil
  rw [List.nil_append, operandTexts_hexWord, Shape.line, readWord_hexWord] at h
  exact h

theorem assembleLine_twoWords {name : List Char} {line : Word → Word → AsmLine} (a b : Word)
    (hshape : shapeOf name = some (.twoWords line)) (hname : name ≠ []) (hplain : name.all isPlain = true) :
    assembleLine (name ++ ' ' :: (hexWord a ++ [',', ' '] ++ hexWord b)) = .ok (some (line a b)) := by
  have hpre : ';' ∉ hexWord a ++ [',', ' '] := by
    rw [List.mem_append, not_or]
    exact ⟨semicolon_notMem_hexWord a, by decide⟩
  have h := assembleLine_append_hexWord b hshape hname hplain hpre
  rw [operandTexts_two_hexWords, Shape.line, readWord_hexWord, readWord_hexWord] at h
  exact h

/-- Settles O8: a command with operands by its mnemonic's shape, one without by reading its one word. -/
theorem sourceLineAssembles : Obligations.SourceLineAssembles := by
  intro i
  cases i with
  | illegal | next | jump32 | jump64 | jump96 => decide
  | init seed =>
    have h := assembleLine_oneWord seed (name := ['I', 'N', 'I', 'T']) rfl (List.cons_ne_nil _ _) rfl
    simpa only [sourceLine, List.cons_append, List.nil_append] using h
  | jump p0 p1 =>
    have h := assembleLine_twoWords p0 p1 (name := ['J', 'U', 'M', 'P']) rfl (List.cons_ne_nil _ _) rfl
    simpa only [sourceLine, List.cons_append, List.nil_append, List.append_assoc] using h
  | load s0 s1 =>
    have h := assembleLine_twoWords s0 s1 (name := ['L', 'O', 'A', 'D']) rfl (List.cons_ne_nil _ _) rfl
    simpa only [sourceLine, List.cons_append, List.nil_append, List.append_assoc] using h

end Sys2Proof.Machine
end

section
/-! SUPPORT. Init, INIT and LOAD (R50 to R54): the mixing step is a bijection of words, a command's answer said once, the
frame of the commands that leave busy = 0, and how far an edge depends on rnd_out and err_illegal (R51). -/

namespace Sys2Proof.Machine

/-! ## Init (R50, R52) -/

/-- The mixing step in exact arithmetic modulo 2^64 (R50). -/
theorem lcg_toNat (x : Word) :
    (lcg x).toNat = (x.toNat * 6364136223846793005 + 1442695040888963407) % 2 ^ 64 := by
  have hmul : lcgMul.toNat = 6364136223846793005 := rfl
  have hadd : lcgAdd.toNat = 1442695040888963407 := rfl
  rw [lcg, BitVec.toNat_add, BitVec.toNat_mul, hmul, hadd, Nat.add_mod_mod, Nat.mul_comm, Nat.add_comm]

/-- Settles O12: each word of Init is the mixing step's exact arithmetic. -/
theorem initMixesTwice : Obligations.InitMixesTwice :=
  ⟨⟨rfl, rfl⟩, fun seed => ⟨lcg_toNat seed, lcg_toNat (lcg seed)⟩⟩

/-- The inverse of the odd multiplier LCG_MUL modulo 2^64. -/
def lcgMulInv : Word := 0xC097EF87329E28A5#64

/-- The mixing step undone. -/
def lcgUndo (y : Word) : Word := lcgMulInv * (y - lcgAdd)

theorem lcgMulInv_mul_lcgMul : lcgMulInv * lcgMul = 1#64 := by decide

theorem lcgUndo_lcg (x : Word) : lcgUndo (lcg x) = x := by
  rw [lcgUndo, lcg, BitVec.add_comm, BitVec.add_sub_cancel, ← BitVec.mul_assoc, lcgMulInv_mul_lcgMul, BitVec.one_mul]

theorem lcg_lcgUndo (y : Word) : lcg (lcgUndo y) = y := by
  rw [lcgUndo, lcg, ← BitVec.mul_assoc, BitVec.mul_comm lcgMul, lcgMulInv_mul_lcgMul, BitVec.one_mul, BitVec.add_comm,
    BitVec.sub_add_cancel]

/-- The multiplier is odd, so the mixing step is a bijection of words (R52). -/
theorem lcg_bijective : Function.Bijective lcg :=
  Function.bijective_iff_has_inverse.mpr ⟨lcgUndo, lcgUndo_lcg, lcg_lcgUndo⟩

/-- The first word of Init determines the seed (R52). -/
theorem initState_injective : Function.Injective initState :=
  fun _ _ h => lcg_bijective.injective (congrArg StatePair.s0 h)

/-- Settles O13: by the bijection, one seed alone has a given first word. -/
theorem initNeverZeroAndInjective : Obligations.InitNeverZeroAndInjective := by
  refine ⟨initState_ne_zero, initState_injective, lcg_bijective, fun seed => ?_⟩
  have hzero : lcg 0x9995B5B621535015 = 0 := by decide
  exact ⟨fun h => lcg_bijective.injective (h.trans hzero.symm), fun h => h ▸ hzero⟩

/-! ## INIT and LOAD (R53, R54) -/

/-- A command's meaning is also the effect of the edge that accepts it (R42). -/
theorem answersBy_of_exec {i : Instr} {f : State → State} (h : ∀ s, exec i s = .next (f s)) : AnswersBy i f :=
  fun s => ⟨h s, fun ha => (step_of_acceptsNext ha).trans (h s.dropSample)⟩

theorem Presents.noReset {x : PortSample} {i : Instr} (h : Presents x i) : NoReset x :=
  ⟨h.1, by rw [h.2.1]; rfl⟩

/-- Settles O14: the state after INIT is Init's, which is never zero; a running jump takes the edge. -/
theorem initCommand : Obligations.InitCommand := by
  refine ⟨fun _ _ => rfl, fun seed => answersBy_of_exec fun _ => rfl, fun seed s t h => ?_,
    fun s seed hp hb => step_of_busy hp.noReset hb, by decide, by decide, by decide⟩
  have hgen : t.gen = initState seed := exec_gen h
  rw [Bool.eq_false_iff, ne_eq, State.zeroState_iff, hgen]
  exact initState_ne_zero seed

/-- Settles O15: the state after LOAD is its operands, and the rest of the architectural values stay. -/
theorem loadCommand : Obligations.LoadCommand := by
  refine ⟨fun _ _ => rfl, fun d0 d1 => answersBy_of_exec fun _ => rfl, fun d0 d1 s t h => ?_, fun s t h => ?_⟩
  · have hgen : t.gen = ⟨d0, d1⟩ := exec_gen h
    rw [State.zeroState_iff, hgen, StatePair.mk.injEq]
  · obtain rfl := Host.Outcome.next.inj h
    rfl

/-! ## The commands that leave busy = 0 (R53, R54, R61, R82) -/

/-- Only a jump's accept edge writes the engine registers. -/
theorem exec_engine_of_not_startsJump {i : Instr} {s t : State} (hj : startsJump i = false)
    (h : exec i s = .next t) : t.p = s.p ∧ t.k = s.k ∧ t.work = s.work ∧ t.acc = s.acc := by
  obtain ⟨-, -, -, he⟩ | ⟨-, he⟩ | ⟨-, he⟩ | ⟨hj', -⟩ := exec_next_cases i s
  case inr.inr.inr => cases hj.symm.trans hj'
  all_goals
    cases he.symm.trans h
    exact ⟨rfl, rfl, rfl, rfl⟩

/-- Settles O51: the frame register by register, from the lemma that says who writes each. -/
theorem oneEdgeCommandFrame : Obligations.OneEdgeCommandFrame := by
  intro i s t hj h
  obtain ⟨hp, hk, hwork, hacc⟩ := exec_engine_of_not_startsJump hj h
  obtain ⟨hw0, hw1⟩ := StatePair.mk.inj hwork
  obtain ⟨ht0, ht1⟩ := StatePair.mk.inj hacc
  obtain ⟨hseed, hpins⟩ := exec_keeps_resetSeed_and_pins h
  refine ⟨by rw [exec_busy h, hj, Bool.false_or], hp, hk, hw0, hw1, ht0, ht1, hseed, hpins, fun hi => ?_, fun hi => ?_,
    fun hi => ?_⟩
  · rw [exec_rndOut h, if_neg hi]
  · rw [Bool.eq_iff_iff, exec_errIllegal h, or_iff_left hi]
  · subst hi
    exact StatePair.mk.inj (exec_gen h)

/-! ## rnd_out and err_illegal decide nothing (R51)

Of what a block held before INIT, only these two registers outlast it, besides the engine's. An edge carries them along or
overwrites them and reads neither, so a run from other values of them differs in nothing else. -/

/-- The state with rnd_out and err_illegal at given values. -/
def State.withPast (s : State) (r : Word) (e : Bool) : State := { s with rndOut := r, errIllegal := e }

/-- An engine step carries both along. -/
theorem engineStep_withPast (s : State) (r : Word) (e : Bool) :
    (s.withPast r e).engineStep = s.engineStep.withPast r e := by
  by_cases hk : s.k = 127#7
  · rw [engineStep_commit hk, engineStep_commit (s := s.withPast r e) hk]
    rfl
  · rw [engineStep_continue hk, engineStep_continue (s := s.withPast r e) hk]
    rfl

/-- A command does the same to everything else, and a new output does not depend on them. -/
theorem exec_withPast {i : Instr} {s t : State} (r : Word) (e : Bool) (h : exec i s = .next t) :
    ∃ r' e', exec i (s.withPast r e) = .next (t.withPast r' e') ∧ (t.rndValid = true → r' = t.rndOut) := by
  cases i <;> obtain rfl := Host.Outcome.next.inj h
  case illegal => exact ⟨r, true, rfl, nofun⟩
  case next => exact ⟨_, e, rfl, fun _ => rfl⟩
  case init | load | jump | jump32 | jump64 | jump96 => exact ⟨r, e, rfl, nofun⟩

/-- An edge does the same to everything else, and a new output does not depend on them. -/
theorem step_withPast {s t : State} (r : Word) (e : Bool) (h : step s = .next t) :
    ∃ r' e', step (s.withPast r e) = .next (t.withPast r' e') ∧ (t.rndValid = true → r' = t.rndOut) := by
  obtain ⟨hr, -, rfl⟩ | ⟨hx, hb, -, -, rfl⟩ | ⟨i, ha, -, he⟩ | ⟨hr, hv, hb, -, -, rfl⟩ := step_next_kinds h
  · exact ⟨0, false, step_of_resetsNext (s := s.withPast r e) hr, nofun⟩
  · exact ⟨r, e, (step_of_busy (s := s.withPast r e) hx hb).trans
      (congrArg Host.Outcome.next (engineStep_withPast s.dropSample r e)), by simp⟩
  · obtain ⟨r', e', he', hout⟩ := exec_withPast r e he
    exact ⟨r', e', (step_of_acceptsNext (s := s.withPast r e) ha).trans he', hout⟩
  · exact ⟨r, e, step_of_idle (s := s.withPast r e) hr hv hb, nofun⟩

/-- A run does the same to everything else, and shows the same new output. -/
theorem runsTo_withPast {n : Nat} {s t : State} {r : Word} {e : Bool} (h : RunsTo n s t)
    (hout : s.rndValid = true → r = s.rndOut) :
    ∃ r' e', RunsTo n (s.withPast r e) (t.withPast r' e') ∧ (t.rndValid = true → r' = t.rndOut) := by
  induction n generalizing s r e with
  | zero =>
    obtain rfl := (runsTo_zero_iff s t).mp h
    exact ⟨r, e, (runsTo_zero_iff _ _).mpr rfl, hout⟩
  | succ n ih =>
    obtain ⟨u, hsu, hut⟩ := (runsTo_succ_iff n s t).mp h
    obtain ⟨r₁, e₁, hu, houtu⟩ := step_withPast r e hsu
    obtain ⟨r', e', ht, houtt⟩ := ih hut houtu
    exact ⟨r', e', (runsTo_succ_iff n _ _).mpr ⟨_, hu, ht⟩, houtt⟩

/-- After INIT with one seed, two blocks that were not busy and have one build and one host agree on what is visible, once
rnd_out and err_illegal are set equal. -/
theorem sameVisible_after_init {s t : State} (seed : Word) (hs : s.busy = false) (ht : t.busy = false)
    (hseed : s.resetSeed = t.resetSeed) (hpins : s.pins = t.pins) :
    SameVisible (s.clearPulses.setGen (initState seed))
      ((t.clearPulses.setGen (initState seed)).withPast s.rndOut s.errIllegal) :=
  ⟨rfl, rfl, rfl, hs.trans ht.symm, rfl, rfl, hseed, hpins, fun hb => by cases hs.symm.trans hb⟩

/-- Settles O22: after INIT the runs differ at most in the idle engine, which `SameVisible` leaves open, and in rnd_out
and err_illegal, which no edge reads. -/
theorem outputsDetermined : Obligations.OutputsDetermined := by
  intro s t seed hs ht hpins hseed n s' hrun
  have htAccepts : t.AcceptsNext (.init seed) := by
    rw [State.AcceptsNext, State.sample, ← hpins]
    exact ⟨hs.1, ht⟩
  obtain ⟨s₁, hs₁, hrun₁⟩ := (runsTo_succ_iff n s s').mp hrun
  obtain rfl := Host.Outcome.next.inj (exec_of_acceptsNext hs hs₁)
  have hvisible := sameVisible_after_init (s := s.dropSample) (t := t.dropSample) seed hs.2 ht hseed
    (congrArg List.tail hpins)
  obtain ⟨t₁, ht₁, hsame⟩ := hvisible.runsTo hrun₁
  obtain ⟨r, e, hpast, hout⟩ := runsTo_withPast (r := t.rndOut) (e := t.errIllegal) ht₁ nofun
  exact ⟨t₁.withPast r e, (runsTo_succ_iff n t _).mpr ⟨_, step_of_acceptsNext htAccepts, hpast⟩, hsame.gen, hsame.busy,
    hsame.rndValid, hsame.jumpDone, fun hv => hsame.rndOut.trans (hout (hsame.rndValid ▸ hv)).symm⟩

end Sys2Proof.Machine
end

section
/-! SUPPORT. The step function (R56, R59): its output in exact arithmetic, its state bit by bit; T is linear, the output
is not. -/

namespace Sys2Proof.Machine

/-- The output's rotation (R56) in exact arithmetic: the two parts of the word change places. -/
theorem rotl_29_toNat (a : Word) : (rotl a 29).toNat = a.toNat * 2 ^ 29 % 2 ^ 64 + a.toNat / 2 ^ 35 := by
  have hdisjoint : (a <<< 29) &&& (a >>> 35) = 0#64 := by
    apply BitVec.eq_of_getLsbD_eq
    intro i hi
    by_cases hlow : i < 29
    · simp [hlow]
    · simp [show 64 ≤ 35 + i by omega]
  have ha := a.isLt
  rw [show rotl a 29 = a <<< 29 + a >>> 35 from (BitVec.add_eq_or_of_and_eq_zero _ _ hdisjoint).symm, BitVec.toNat_add,
    BitVec.toNat_shiftLeft, BitVec.toNat_ushiftRight, Nat.shiftLeft_eq, Nat.shiftRight_eq_div_pow]
  omega

theorem stepResult_toNat (s : StatePair) {m : Nat} (hm : m = (s.s0.toNat + s.s1.toNat) * 9 % 2 ^ 64) :
    (stepResult s).toNat = (m * 2 ^ 29 % 2 ^ 64 + m / 2 ^ 35 + s.s0.toNat) % 2 ^ 64 := by
  have hsum : ((s.s0 + s.s1) * 9).toNat = m := by
    rw [hm, BitVec.toNat_mul, BitVec.toNat_add]
    exact Nat.mod_mul_mod _ _ _
  rw [stepResult, BitVec.toNat_add, rotl_29_toNat, hsum]

theorem stepState_s0_getLsbD (s : StatePair) {i : Nat} (hi : i < 64) :
    (stepState s).s0.getLsbD i = (s.s0.getLsbD i ^^ s.s1.getLsbD ((i + 35) % 64)) := by
  rw [stepState, BitVec.getLsbD_xor, rotlMovesBitsUp.1 s.s1 29 i hi]

theorem stepState_s1_getLsbD (s : StatePair) {i : Nat} (hi : i < 64) :
    (stepState s).s1.getLsbD i = (s.s0.getLsbD i ^^ (decide (9 ≤ i) && s.s1.getLsbD (i - 9))) := by
  rw [stepState, BitVec.getLsbD_xor, BitVec.getLsbD_shiftLeft]
  simp only [hi, decide_true, Bool.true_and, ← decide_not, Nat.not_lt]

/-- Settles O18: the rotation and the shift, each said once. -/
theorem stepBitExact : Obligations.StepBitExact :=
  fun s => ⟨fun _ => stepResult_toNat s, fun _ hi => ⟨stepState_s0_getLsbD s hi, stepState_s1_getLsbD s hi⟩⟩

/-- Settles O19: T is linear; the output adds s0 and s1, and 1 + 1 carries where XOR cancels. -/
theorem transitionLinear : Obligations.TransitionLinear :=
  ⟨stepState_xorPair, stepState_zero, ⟨1, 0⟩, ⟨0, 1⟩, by decide⟩

end Sys2Proof.Machine
end

section
/-! SUPPORT. Products and powers modulo C(x) evaluated on Nat: a way to compute `polyMul` and `polyXPowFuel` that the
kernel runs fast. The functions call `Nat.xor` and the like by name, because unfolding the operators at each of an
evaluation's many thousand iterations costs more than the arithmetic. -/

namespace Sys2Proof.Machine

/-- `polyMulX` on Nat. -/
def mulXNat (a : Nat) : Nat :=
  Nat.xor (Nat.mod (Nat.mul 2 a) (Nat.pow 2 128)) (Nat.mul charPolyLow.toNat (Nat.div a (Nat.pow 2 127)))

/-- The product's loop on Nat, n iterations from its end: `b` holds the bits to come of the second factor, `a` the first
factor times the power of x reached, `sum` the sum so far. -/
def mulNat : Nat → Nat → Nat → Nat → Nat
  | 0, _, _, sum => sum
  | n + 1, b, a, sum => mulNat n (Nat.div b 2) (mulXNat a) (Nat.xor sum (Nat.mul a (Nat.mod b 2)))

/-- `polyXPowFuel` on Nat. -/
def xPowNat : Nat → Nat → Nat
  | 0, _ => 1
  | fuel + 1, n =>
    let h := xPowNat fuel (n / 2)
    if n % 2 = 1 then mulXNat (mulNat 128 h h 0) else mulNat 128 h h 0

theorem polyMulX_toNat (a : GfPoly) : (polyMulX a).toNat = mulXNat a.toNat := by
  have hshift : (a <<< 1).toNat = Nat.mod (Nat.mul 2 a.toNat) (Nat.pow 2 128) := by
    rw [BitVec.toNat_shiftLeft, Nat.shiftLeft_eq, Nat.mul_comm]
    rfl
  have ha := a.isLt
  rw [polyMulX, BitVec.msb_eq_decide, mulXNat, ← hshift]
  by_cases hmsb : 2 ^ 127 ≤ a.toNat
  · have hdiv : Nat.div a.toNat (Nat.pow 2 127) = 1 := Nat.div_eq_of_lt_le (by simpa using hmsb) (by simpa using ha)
    rw [hdiv, if_pos (by simpa using hmsb), BitVec.toNat_xor]
    exact congrArg _ (Nat.mul_one _).symm
  · have hdiv : Nat.div a.toNat (Nat.pow 2 127) = 0 := Nat.div_eq_of_lt (Nat.lt_of_not_le hmsb)
    rw [hdiv, if_neg (by simpa using hmsb)]
    exact (Nat.xor_zero _).symm

/-- The sum's next value: the bit as a factor 0 or 1. -/
theorem toNat_ite_polyBit_xor (b sum a : GfPoly) (i : Nat) :
    (if polyBit b i then sum ^^^ a else sum).toNat =
      Nat.xor sum.toNat (Nat.mul a.toNat (Nat.mod (b.toNat / 2 ^ i) 2)) := by
  have hbit : polyBit b i = decide (b.toNat / 2 ^ i % 2 = 1) := Nat.testBit_eq_decide_div_mod_eq
  obtain h | h := Nat.mod_two_eq_zero_or_one (b.toNat / 2 ^ i)
  · rw [hbit, h, show Nat.mod (b.toNat / 2 ^ i) 2 = 0 from h]
    exact (Nat.xor_zero _).symm
  · rw [hbit, h, show Nat.mod (b.toNat / 2 ^ i) 2 = 1 from h]
    exact congrArg _ (Nat.mul_one _).symm

theorem polyMulLoop_toNat (a b : GfPoly) (i n : Nat) :
    (polyMulLoop a b (i + n)).1.toNat =
      mulNat n (b.toNat / 2 ^ i) (polyMulLoop a b i).2.toNat (polyMulLoop a b i).1.toNat := by
  induction n generalizing i with
  | zero => rfl
  | succ n ih =>
    have hb : Nat.div (b.toNat / 2 ^ i) 2 = b.toNat / 2 ^ (i + 1) := Nat.div_div_eq_div_mul _ _ _
    rw [mulNat, hb, ← polyMulX_toNat, ← toNat_ite_polyBit_xor, ← Nat.add_assoc, Nat.add_right_comm, ih]
    rfl

theorem polyMul_toNat (a b : GfPoly) : (polyMul a b).toNat = mulNat 128 b.toNat a.toNat 0 := by
  have h := polyMulLoop_toNat a b 0 128
  rw [Nat.zero_add, Nat.pow_zero, Nat.div_one] at h
  rw [polyMul_eq, h]
  rfl

theorem polyXPowFuel_toNat (fuel n : Nat) : (polyXPowFuel fuel n).toNat = xPowNat fuel n := by
  induction fuel generalizing n with
  | zero => rfl
  | succ fuel ih =>
    rw [polyXPowFuel, xPowNat, ← ih, ← polyMul_toNat, ← polyMulX_toNat]
    exact apply_ite _ _ _ _

/-- x^(2^128 - 1) = 1 modulo C(x). -/
theorem polyXPowFuel_period : polyXPowFuel 128 (2 ^ 128 - 1) = 1 := by
  apply BitVec.eq_of_toNat_eq
  rw [polyXPowFuel_toNat]
  decide +kernel

end Sys2Proof.Machine
end

section
/-! SUPPORT. T has full period (R56, R60): x^(2^128 - 1) = 1 modulo C(x), and for each prime factor q of 2^128 - 1 the
polynomial x^((2^128 - 1) / q) + 1 has an inverse, so no shorter period divides it. NEXT's zero_state (R61) and the order
of x follow. -/

namespace Sys2Proof.Machine

open Function

/-! ## The prime factors of 2^128 - 1 -/

/-- The largest prime factor of 2^64 + 1, by Lucas' test with the primitive root 3. -/
theorem prime_67280421310721 : Nat.Prime 67280421310721 := by
  have hprimes : ∀ q ∈ [2, 5, 47, 373, 2998279], q.Prime := by norm_num
  have hroot : ∀ q ∈ [2, 5, 47, 373, 2998279], (3 : ZMod 67280421310721) ^ ((67280421310721 - 1) / q) ≠ 1 := by
    simp only [List.forall_mem_cons, List.not_mem_nil, Nat.reduceSub, Nat.reduceDiv]
    refine ⟨?_, ?_, ?_, ?_, ?_, nofun⟩ <;> reduce_mod_char <;> decide
  refine lucas_primality _ 3 (by simp only [Nat.reduceSub]; reduce_mod_char) fun q hq hdvd => hroot q ?_
  have hprod : 67280421310721 - 1 ∣ [2, 5, 47, 373, 2998279].prod ^ 8 := by decide
  exact mem_list_primes_of_dvd_prod hq.prime (fun p hp => (hprimes p hp).prime)
    (hq.dvd_of_dvd_pow (hdvd.trans hprod))

/-- Each prime factor q of 2^128 - 1, with the inverse of x^((2^128 - 1) / q) + 1 modulo C(x). -/
def quotientInverses : List (Nat × GfPoly) :=
  [(3, 0x8639807A2A1BF308EA8D3A45147E93AC#128), (5, 0xAF56683CA354F6586AF7F21BBF9725DE#128),
   (17, 0xEC3F821B26195463B2F3BD7EDD78ABF2#128), (257, 0x2820F47FD1DD4FD0B1C5F19B5CB9E353#128),
   (641, 0x03823A38F543C9EB5BB8388E963C9DDF#128), (65537, 0x8ED14527982BA95A0B6605AA26485279#128),
   (274177, 0xB6A30F5CB96E71F7F7D30C12895FF5EB#128), (6700417, 0x2D9E5BFCDCCD70B1B1AE0917A872B69E#128),
   (67280421310721, 0x3D4967CCAE3A01E9699931655725550E#128)]

theorem prime_of_mem_quotientInverses : ∀ q ∈ quotientInverses.map Prod.fst, q.Prime := by
  simp only [quotientInverses, List.map_cons, List.map_nil, List.forall_mem_cons]
  refine ⟨?_, ?_, ?_, ?_, ?_, ?_, ?_, ?_, prime_67280421310721, nofun⟩ <;> norm_num

theorem polyMul_quotientInverses : ∀ qv ∈ quotientInverses,
    polyMul (polyXPowFuel 128 ((2 ^ 128 - 1) / qv.1) ^^^ 1) qv.2 = 1 := by
  simp only [← BitVec.toNat_inj, polyMul_toNat, BitVec.toNat_xor, polyXPowFuel_toNat]
  decide +kernel

/-- The list holds every prime factor of 2^128 - 1. -/
theorem exists_inverse_of_prime {q : Nat} (hq : q.Prime) (hdvd : q ∣ 2 ^ 128 - 1) :
    ∃ v, polyMul (polyXPowFuel 128 ((2 ^ 128 - 1) / q) ^^^ 1) v = 1 := by
  have hprod : (quotientInverses.map Prod.fst).prod = 2 ^ 128 - 1 := by decide
  have hmem : q ∈ quotientInverses.map Prod.fst :=
    mem_list_primes_of_dvd_prod hq.prime (fun p hp => (prime_of_mem_quotientInverses p hp).prime) (hprod ▸ hdvd)
  obtain ⟨⟨q, v⟩, hqv, rfl⟩ := List.mem_map.mp hmem
  exact ⟨v, polyMul_quotientInverses (q, v) hqv⟩

/-! ## The period of T -/

theorem isPeriodicPt_stepState (s : StatePair) : IsPeriodicPt stepState (2 ^ 128 - 1) s := by
  have h := jumpState_polyXPowFuel (fuel := 128) (n := 2 ^ 128 - 1) (by decide) s
  rw [polyXPowFuel_period, jumpState_one] at h
  exact h.symm

theorem stepState_bijective : Bijective stepState := by
  have hall : periodicPts stepState = Set.univ :=
    Set.eq_univ_of_forall fun s => mk_mem_periodicPts (by decide) (isPeriodicPt_stepState s)
  exact Set.bijOn_univ.mp (hall ▸ bijOn_periodicPts stepState)

theorem stepState_eq_zero_iff (s : StatePair) : stepState s = .zero ↔ s = .zero :=
  stepState_bijective.injective.eq_iff' stepState_zero

theorem iterate_stepState_ne_zero {s : StatePair} (hs : s ≠ .zero) (n : Nat) : stepState^[n] s ≠ .zero := by
  rw [← iterate_stepState_zero n]
  exact (stepState_bijective.injective.iterate n).ne hs

/-- A state of period m jumps by x^m + 1 to zero; where the polynomial has an inverse modulo C(x), the jump can be
undone, so the state is zero itself. -/
theorem not_isPeriodicPt_of_inverse {m : Nat} {v : GfPoly} (hm : m < 2 ^ 128)
    (hv : polyMul (polyXPowFuel 128 m ^^^ 1) v = 1) {s : StatePair} (hs : s ≠ .zero) :
    ¬ IsPeriodicPt stepState m s := by
  intro hper
  have hzero : jumpState s (polyXPowFuel 128 m ^^^ 1) = .zero := by
    rw [jumpState_xor, jumpState_polyXPowFuel hm, jumpState_one, hper.eq, xorPair_self]
  apply hs
  rw [← jumpState_one s, ← hv, jumpState_polyMul, hzero, jumpState_zero_state]

/-- A period that no quotient by a prime shortens is the least one. -/
theorem minimalPeriod_eq_of_prime_quotients {α : Type} {f : α → α} {x : α} {n : Nat}
    (hper : IsPeriodicPt f n x) (hq : ∀ q, q.Prime → q ∣ n → ¬ IsPeriodicPt f (n / q) x) : minimalPeriod f x = n := by
  obtain ⟨c, hc⟩ := hper.minimalPeriod_dvd
  by_cases hc1 : c = 1
  · rw [hc, hc1, Nat.mul_one]
  · obtain ⟨q, hprime, hqc⟩ := Nat.exists_prime_and_dvd hc1
    refine absurd ?_ (hq q hprime (hqc.trans ⟨_, hc.trans (Nat.mul_comm _ _)⟩))
    rw [isPeriodicPt_iff_minimalPeriod_dvd]
    exact ⟨c / q, by rw [← Nat.mul_div_assoc _ hqc, ← hc]⟩

theorem minimalPeriod_stepState {s : StatePair} (hs : s ≠ .zero) : minimalPeriod stepState s = 2 ^ 128 - 1 := by
  refine minimalPeriod_eq_of_prime_quotients (isPeriodicPt_stepState s) fun q hq hdvd => ?_
  obtain ⟨v, hv⟩ := exists_inverse_of_prime hq hdvd
  exact not_isPeriodicPt_of_inverse ((Nat.div_le_self _ _).trans_lt (by decide)) hv hs

/-- Settles O20: the least period of a non-zero state under T is 2^128 - 1, and T, being injective, leads none of them
to the all-zero state. -/
theorem fullPeriod : Obligations.FullPeriod := by
  refine ⟨stepState_bijective, fun s hs =>
    ⟨isPeriodicPt_stepState s, fun n hpos hlt => ?_, iterate_stepState_ne_zero hs⟩⟩
  rw [← minimalPeriod_stepState hs] at hlt
  exact not_isPeriodicPt_of_pos_of_lt_minimalPeriod hpos.ne' hlt

/-! ## NEXT (R61) -/

/-- The left shift by 9 discards the bits from 55 on. -/
theorem stepState_s1_congr {b c : Word} (a : Word) (h : ∀ i < 55, b.getLsbD i = c.getLsbD i) :
    (stepState ⟨a, b⟩).s1 = (stepState ⟨a, c⟩).s1 := by
  apply BitVec.eq_of_getLsbD_eq
  intro i hi
  simp only [stepState_s1_getLsbD _ hi, h (i - 9) (by omega)]

/-- Settles O21: NEXT writes Step's words and result; T is injective, so its state is zero after (0, 0) alone. -/
theorem nextCommand : Obligations.NextCommand := by
  refine ⟨fun _ _ => rfl, answersBy_of_exec fun _ => rfl, fun s t h => ?_, fun a _ _ => stepState_s1_congr a,
    by decide, stepState_zero, by decide, by decide, by decide, by decide, by decide⟩
  have hgen : t.gen = stepState s.gen := exec_gen h
  rw [State.zeroState_iff, hgen, stepState_eq_zero_iff]

/-! ## The order of x modulo C(x) (R65)
A power of x is told from another by where it jumps from one non-zero state, here (1, 0). -/

theorem one_zero_ne_zero : (⟨1, 0⟩ : StatePair) ≠ .zero := by decide

theorem jumpState_polyXPow (n : Nat) (s : StatePair) : jumpState s (polyXPow n) = stepState^[n] s := by
  induction n with
  | zero => exact jumpState_one s
  | succ n ih => rw [polyXPow, jumpState_polyMulX, ih, iterate_succ_apply']

theorem polyXPow_ne_zero (n : Nat) : polyXPow n ≠ 0 := by
  intro h
  apply iterate_stepState_ne_zero one_zero_ne_zero n
  rw [← jumpState_polyXPow, h, jumpState_zero_poly]

theorem toNat_mem_Ico {p : GfPoly} (hp : p ≠ 0) : p.toNat ∈ Finset.Ico 1 (2 ^ 128) :=
  Finset.mem_Ico.mpr ⟨Nat.pos_of_ne_zero fun h => hp (BitVec.eq_of_toNat_eq h), p.isLt⟩

/-- Equal powers jump equally far, and the powers below the period jump to different states. -/
theorem polyXPow_injOn : Set.InjOn polyXPow (Set.Iio (2 ^ 128 - 1)) := by
  intro i hi j hj h
  rw [← minimalPeriod_stepState one_zero_ne_zero] at hi hj
  apply iterate_injOn_Iio_minimalPeriod hi hj
  simp only [← jumpState_polyXPow, h]

/-- The powers of x below the period are as many as the non-zero polynomials, so they are all of them. -/
theorem exists_polyXPow_eq {p : GfPoly} (hp : p ≠ 0) : ∃ n < 2 ^ 128 - 1, polyXPow n = p := by
  have hsurj : Set.SurjOn (fun n => (polyXPow n).toNat) (Finset.range (2 ^ 128 - 1)) (Finset.Ico 1 (2 ^ 128)) := by
    apply Finset.surjOn_of_injOn_of_card_le
    · exact fun n _ => toNat_mem_Ico (polyXPow_ne_zero n)
    · rw [Finset.coe_range]
      exact fun i hi j hj h => polyXPow_injOn hi hj (BitVec.eq_of_toNat_eq h)
    · rw [Nat.card_Ico, Finset.card_range]
  obtain ⟨n, hn, h⟩ := hsurj (toNat_mem_Ico hp)
  exact ⟨n, Finset.mem_range.mp hn, BitVec.eq_of_toNat_eq h⟩

/-- Every non-zero polynomial is a power of x, so it jumps as steps do (R67). -/
theorem jumpState_eq_zero_iff {s : StatePair} (hs : s ≠ .zero) (p : GfPoly) : jumpState s p = .zero ↔ p = 0 := by
  refine ⟨fun h => ?_, fun h => h ▸ jumpState_zero_poly s⟩
  by_contra hp
  obtain ⟨n, -, rfl⟩ := exists_polyXPow_eq hp
  exact iterate_stepState_ne_zero hs n ((jumpState_polyXPow n s).symm.trans h)

theorem jumpState_injective {s : StatePair} (hs : s ≠ .zero) : Injective (jumpState s) := by
  intro p q h
  apply BitVec.xor_eq_zero_iff.mp
  rw [← BitVec.ofNat_eq_ofNat, ← jumpState_eq_zero_iff hs, jumpState_xor, h, xorPair_self]

theorem polyXPow_eq_one_iff (n : Nat) : polyXPow n = 1 ↔ 2 ^ 128 - 1 ∣ n := by
  rw [← minimalPeriod_stepState one_zero_ne_zero, ← isPeriodicPt_iff_minimalPeriod_dvd,
    ← (jumpState_injective one_zero_ne_zero).eq_iff, jumpState_polyXPow, jumpState_one]
  rfl

/-- The list of R65, without the term x^128. -/
theorem charPolyLow_getLsbD (i : Nat) : charPolyLow.getLsbD i = true ↔
    i ∈ [0, 8, 10, 13, 14, 20, 21, 22, 23, 29, 31, 36, 45, 48, 49, 57, 60, 64, 65, 66, 68, 72, 73, 74, 76, 77, 82, 85,
      88, 90, 92, 93, 98, 101, 104, 106, 112, 114] := by
  by_cases hi : i < 128
  · revert i
    decide
  · refine iff_of_false (by simp [BitVec.getLsbD_of_ge _ _ (Nat.le_of_not_lt hi)]) fun hmem => ?_
    simp only [List.mem_cons, List.not_mem_nil, or_false] at hmem
    omega

/-- Settles O25: the listed bits, C(T) = 0, and x^n = 1 exactly for the multiples of 2^128 - 1. -/
theorem characteristicPolynomial : Obligations.CharacteristicPolynomial := by
  refine ⟨charPolyLow_getLsbD, fun s => ?_, (polyXPow_eq_one_iff _).mpr dvd_rfl, fun n hpos hlt h => ?_⟩
  · rw [jumpState_charPolyLow, xorPair_self]
  · exact Nat.not_dvd_of_pos_of_lt hpos hlt ((polyXPow_eq_one_iff n).mp h)

end Sys2Proof.Machine
end

section
/-! SUPPORT. The edges of a jump (R70 to R74): who sets jump_done (R19), the engine invariant along every edge, the
engine step register by register, and the run of a jump from its accept edge to its commit. -/

namespace Sys2Proof.Machine

/-! ## jump_done (R19) -/

theorem not_commitsNext_of_not_busy {s : State} (hb : s.busy = false) : ¬ s.CommitsNext :=
  fun hc => by cases hb.symm.trans hc.2.1

/-- An engine step sets jump_done at k = 127 and clears it before. -/
theorem engineStep_jumpDone_iff (s : State) : s.engineStep.jumpDone = true ↔ s.k = 127#7 := by
  by_cases hk : s.k = 127#7
  · simp [engineStep_commit hk, hk]
  · simp [engineStep_continue hk, hk]

/-- An edge leaves jump_done up exactly if it commits a jump. -/
theorem step_jumpDone_iff {s t : State} (h : step s = .next t) : t.jumpDone = true ↔ s.CommitsNext := by
  obtain ⟨hr, -, rfl⟩ | ⟨hx, hb, -, -, rfl⟩ | ⟨i, ha, -, he⟩ | ⟨-, -, hb, -, -, rfl⟩ := step_next_kinds h
  · exact iff_of_false nofun fun hc => hr.not_noReset hc.1
  · rw [engineStep_jumpDone_iff, State.dropSample_k]
    exact ⟨fun hk => ⟨hx, hb, hk⟩, fun hc => hc.2.2⟩
  · exact iff_of_false (by simp [(exec_pulses he).2]) (not_commitsNext_of_not_busy ha.2)
  · exact iff_of_false nofun (not_commitsNext_of_not_busy hb)

theorem jumpDone_eq_false_of_not_commitsNext {s t : State} (h : step s = .next t) (hc : ¬ s.CommitsNext) :
    t.jumpDone = false :=
  Bool.eq_false_of_not_eq_true (mt (step_jumpDone_iff h).mp hc)

/-- The commit edge is an engine step that ends the jump. -/
theorem step_busy_of_commitsNext {s t : State} (hc : s.CommitsNext) (h : step s = .next t) : t.busy = false := by
  obtain ⟨hx, hb, hk⟩ := hc
  obtain rfl := Host.Outcome.next.inj ((step_of_busy hx hb).symm.trans h)
  rw [engineStep_commit (s := s.dropSample) hk]

/-- Settles O49: the commit edge alone sets the pulse, and it ends the jump, so the next edge commits none. -/
theorem jumpDonePulse : Obligations.JumpDonePulse := by
  refine ⟨fun s t => step_jumpDone_iff, fun s t u hst htu hdone => ?_⟩
  have hfree : t.busy = false := step_busy_of_commitsNext ((step_jumpDone_iff hst).mp hdone) hst
  exact jumpDone_eq_false_of_not_commitsNext htu (not_commitsNext_of_not_busy hfree)

/-! ## The engine invariant (R71 to R74) -/

/-- Every edge keeps a running engine on its loop: a jump starts on it, an engine step follows it, and every other edge
leaves busy = 0. -/
theorem step_engineOnLoop {s t : State} (hl : s.EngineOnLoop) (h : step s = .next t) : t.EngineOnLoop := by
  obtain ⟨-, -, rfl⟩ | ⟨-, hb, -, -, rfl⟩ | ⟨i, ha, -, he⟩ | ⟨-, -, hb, -, -, rfl⟩ := step_next_kinds h
  · exact engineOnLoop_of_not_busy rfl
  · exact engineStep_engineOnLoop (s := s.dropSample) hl hb
  · exact exec_engineOnLoop (s := s.dropSample) ha.2 he
  · exact engineOnLoop_of_not_busy hb

/-- Both pulses are down after an edge that leaves busy = 1: it accepts a jump and no NEXT, or it runs the engine and
does not commit. -/
theorem step_quiet {s t : State} (h : step s = .next t) (hb : t.busy = true) :
    t.rndValid = false ∧ t.jumpDone = false := by
  have hcommit : ¬ s.CommitsNext := fun hc => by cases hb.symm.trans (step_busy_of_commitsNext hc h)
  have hnext : ¬ s.AcceptsNext .next := fun ha => by
    have hfree : t.busy = s.busy := exec_busy (exec_of_acceptsNext ha h)
    cases hb.symm.trans (hfree.trans ha.2)
  exact ⟨Bool.eq_false_of_not_eq_true (mt (step_rndValid_iff h).mp hnext),
    jumpDone_eq_false_of_not_commitsNext h hcommit⟩

/-- Settles O32: the loop, and for the pulses the edges that set each, which exclude each other. -/
theorem engineInvariantKept : Obligations.EngineInvariantKept := by
  intro s t hinv h
  refine ⟨step_engineOnLoop hinv.engine h, step_quiet h, ?_⟩
  rw [step_rndValid_iff h, step_jumpDone_iff h]
  exact fun ⟨ha, hc⟩ => not_commitsNext_of_not_busy ha.2 hc

/-! ## One engine edge (R71) -/

/-- Settles O30: `engineStep` at the commit and before it, with the fold of R71 written out. -/
theorem engineStepEdge : Obligations.EngineStepEdge := by
  intro s u0 u1 hx hb hu
  have hfold : foldBit (polyBit s.dropSample.p s.dropSample.k.toNat) s.dropSample.acc s.dropSample.work = ⟨u0, u1⟩ := by
    rw [polyBit, State.dropSample_p, State.dropSample_k]
    cases hbit : s.p.getLsbD s.k.toNat <;>
      · rw [hbit] at hu
        cases hu
        rfl
  refine ⟨not_acceptsNext_of_busy hb, (step_of_busy hx hb).trans (congrArg Host.Outcome.next ?_)⟩
  split
  next hk =>
    rw [engineStep_commit (s := s.dropSample) (BitVec.eq_of_toNat_eq hk), hfold]
    rfl
  next hk =>
    have hsucc : BitVec.ofNat 7 (s.k.toNat + 1) = s.k + 1 := by rw [BitVec.ofNat_add, BitVec.ofNat_toNat]; rfl
    rw [engineStep_continue (s := s.dropSample) fun h => hk (congrArg BitVec.toNat h), hfold, hsucc]
    rfl

/-! ## The accept edge of a jump (R70, R77 to R79) -/

/-- A command that starts the engine writes the engine's registers, busy and the pulses. -/
theorem answersBy_startJump {i : Instr} {p : GfPoly} (h : ∀ s, exec i s = .next (s.startJump p)) :
    AnswersBy i fun s =>
      { s with p := p, w0 := s.s0, w1 := s.s1, t0 := 0, t1 := 0, k := 0, busy := true, rndValid := false,
               jumpDone := false } :=
  answersBy_of_exec h

theorem exec_jump (p0 p1 : Word) (s : State) : exec (.jump p0 p1) s = .next (s.startJump (polyOperand p0 p1)) := rfl

/-- A jump's accept edge starts the engine with the polynomial that the command jumps by. -/
theorem exec_of_startsJump {i : Instr} (hj : startsJump i = true) (s : State) :
    ∃ p, genAfter i s.gen = jumpState s.gen p ∧ exec i s = .next (s.startJump p) := by
  obtain ⟨hj', -⟩ | ⟨rfl, -⟩ | ⟨rfl, -⟩ | ⟨-, hp⟩ := exec_next_cases i s
  · cases hj.symm.trans hj'
  · cases hj
  · cases hj
  · exact hp

/-- Settles O52: the registers after `startJump`. -/
theorem jumpAcceptFrame : Obligations.JumpAcceptFrame := by
  intro i s t hj h
  obtain ⟨p, hgen, he⟩ := exec_of_startsJump hj s
  obtain rfl := Host.Outcome.next.inj (he.symm.trans h)
  exact ⟨rfl, rfl, rfl, rfl, rfl, rfl, rfl, rfl, rfl, rfl, hgen⟩

/-- Settles O35: the constants in halves; a named jump starts the engine with its constant. -/
theorem namedJumpsEqualGeneric : Obligations.NamedJumpsEqualGeneric := by
  have hwords : j32 = polyOperand 0x40165CBAE9CA6DEB 0x688E6BFC19485AB1 ∧
      j64 = polyOperand 0xF4DF34E424CA5C56 0x2FE2DE5C2E12F601 ∧
      j96 = polyOperand 0x185F4DF8B7634607 0x95A98C7025F908B2 := by decide
  obtain ⟨h32, h64, h96⟩ := hwords
  refine ⟨⟨h32, h64, h96⟩, fun s => ⟨?_, ?_, ?_⟩, fun i p hip => ?_⟩
  · rw [exec_jump, ← h32]; rfl
  · rw [exec_jump, ← h64]; rfl
  · rw [exec_jump, ← h96]; rfl
  · simp only [List.mem_cons, List.not_mem_nil, or_false, Prod.mk.injEq] at hip
    obtain ⟨rfl, rfl⟩ | ⟨rfl, rfl⟩ | ⟨rfl, rfl⟩ := hip <;> exact answersBy_startJump fun _ => rfl

/-! ## The run of a jump (R72 to R74) -/

/-- `t` runs a jump by `p` that `s` accepted and has come to bit `k`: it still shows what `s` showed, with both pulses
down (R74), and its engine is on the loop. -/
structure State.Jumping (s : State) (p : GfPoly) (k : Nat) (t : State) : Prop where
  busy : t.busy = true
  poly : t.p = p
  index : t.k.toNat = k
  onLoop : t.EngineOnLoop
  gen : t.gen = s.gen
  rndOut : t.rndOut = s.rndOut
  errIllegal : t.errIllegal = s.errIllegal
  quiet : t.rndValid = false ∧ t.jumpDone = false

theorem jumping_startJump (s : State) (p : GfPoly) : s.Jumping p 0 (s.dropSample.startJump p) :=
  ⟨rfl, rfl, rfl, fun _ => rfl, rfl, rfl, rfl, rfl, rfl⟩

/-- An edge before bit 127 goes on to the next bit. -/
theorem State.Jumping.step {s t : State} {p : GfPoly} {k : Nat} (h : s.Jumping p k t) (hk : k < 127)
    (hx : NoReset t.sample) : ∃ u, step t = .next u ∧ s.Jumping p (k + 1) u := by
  have hne : t.dropSample.k ≠ 127#7 := fun hlast => hk.ne (h.index.symm.trans (congrArg BitVec.toNat hlast))
  have hstep := step_of_busy hx h.busy
  have hbusy := (engineStep_busy_iff (s := t.dropSample) h.busy).mpr hne
  have hindex : t.dropSample.engineStep.k.toNat = k + 1 := by
    rw [engineStep_continue hne, ← h.index]
    exact k_succ_toNat hne
  exact ⟨_, hstep, {
    busy := hbusy
    poly := (State.engineStep_p _).trans h.poly
    index := hindex
    onLoop := step_engineOnLoop h.onLoop hstep
    gen := (engineStep_gen_of_continue hne).trans h.gen
    rndOut := (State.engineStep_rndOut _).trans h.rndOut
    errIllegal := (State.engineStep_errIllegal _).trans h.errIllegal
    quiet := step_quiet hstep hbusy }⟩

/-- The edge at bit 127 commits the jump of the state at the accept edge (R72). -/
theorem State.Jumping.commit {s t : State} {p : GfPoly} (h : s.Jumping p 127 t) (hx : NoReset t.sample) :
    ∃ u, Machine.step t = .next u ∧ u.busy = false ∧ u.gen = jumpState s.gen p ∧ u.jumpDone = true ∧
      u.rndOut = s.rndOut ∧ u.errIllegal = s.errIllegal := by
  have hk : t.k = 127#7 := BitVec.eq_of_toNat_eq h.index
  have hstep := step_of_busy hx h.busy
  have hgen := engineStep_gen_of_commit (s := t.dropSample) h.onLoop h.busy hk
  rw [State.dropSample_gen, State.dropSample_p, h.gen, h.poly] at hgen
  exact ⟨_, hstep, step_busy_of_commitsNext ⟨hx, h.busy, hk⟩ hstep, hgen,
    (engineStep_jumpDone_iff _).mpr hk, (State.engineStep_rndOut _).trans h.rndOut,
    (State.engineStep_errIllegal _).trans h.errIllegal⟩

section

variable {s : State} {i : Instr} {p : GfPoly}

/-- After the accept edge and n engine edges the jump has come to bit n. -/
theorem exists_runsTo_jumping (ha : s.AcceptsNext i) (he : exec i s.dropSample = .next (s.dropSample.startJump p))
    (hx : s.UndisturbedAfter) {n : Nat} (hn : n ≤ 127) : ∃ t, RunsTo (n + 1) s t ∧ s.Jumping p n t := by
  induction n with
  | zero => exact ⟨_, (runsTo_one_iff _ _).mpr ((step_of_acceptsNext ha).trans he), jumping_startJump s p⟩
  | succ n ih =>
    obtain ⟨t, hrun, hjump⟩ := ih (Nat.le_of_succ_le hn)
    have hsample : NoReset t.sample := by
      rw [hrun.sample_eq_getD]
      exact hx (n + 1) n.succ_pos (hn.trans (by decide))
    obtain ⟨u, hstep, hnext⟩ := hjump.step hn hsample
    exact ⟨u, hrun.trans ((runsTo_one_iff _ _).mpr hstep), hnext⟩

/-- After the accept edge and 128 engine edges the jump is committed (R73). -/
theorem exists_runsTo_committed (ha : s.AcceptsNext i) (he : exec i s.dropSample = .next (s.dropSample.startJump p))
    (hx : s.UndisturbedAfter) :
    ∃ t, RunsTo 129 s t ∧ t.busy = false ∧ t.gen = jumpState s.gen p ∧ t.jumpDone = true ∧ t.rndOut = s.rndOut ∧
      t.errIllegal = s.errIllegal := by
  obtain ⟨t, hrun, hjump⟩ := exists_runsTo_jumping ha he hx le_rfl
  have hsample : NoReset t.sample := by
    rw [hrun.sample_eq_getD]
    exact hx 128 (by decide) le_rfl
  obtain ⟨u, hstep, hcommitted⟩ := hjump.commit hsample
  exact ⟨u, hrun.trans ((runsTo_one_iff _ _).mpr hstep), hcommitted⟩

end

/-- Settles O31: the state m edges after the accept edge runs the jump at bit m - 1, and the commit edge follows the
last of them. -/
theorem jumpTimeline : Obligations.JumpTimeline := by
  refine ⟨fun s i ha hj hx => ?_, fun _ _ => jumpDone_eq_false_of_not_commitsNext⟩
  obtain ⟨p, hp, he⟩ := exec_of_startsJump hj s.dropSample
  refine ⟨ha.2, (cmdReady_iff s false).mpr ⟨rfl, ha.2⟩, fun m hm1 hm => ?_, ?_⟩
  · obtain ⟨n, rfl⟩ := Nat.exists_eq_succ_of_ne_zero (Nat.ne_of_gt hm1)
    obtain ⟨t, hrun, hjump⟩ := exists_runsTo_jumping ha he hx (Nat.le_of_succ_le_succ hm)
    have hzero : t.zeroState = s.zeroState := by
      rw [Bool.eq_iff_iff, State.zeroState_iff, State.zeroState_iff, hjump.gen]
    obtain ⟨hvalid, hdone⟩ := hjump.quiet
    exact ⟨t, hrun, hjump.busy, by simp [State.cmdReady, hjump.busy], hjump.gen, hzero, hdone, hvalid, hjump.rndOut,
      hjump.errIllegal⟩
  · obtain ⟨t, hrun, hfree, hgen, hdone, hout, herr⟩ := exists_runsTo_committed ha he hx
    exact ⟨t, hrun, hfree, (cmdReady_iff t false).mpr ⟨rfl, hfree⟩, hgen.trans hp.symm, hdone, hout, herr,
      fun u h => jumpDone_eq_false_of_not_commitsNext h (not_commitsNext_of_not_busy hfree)⟩

end Sys2Proof.Machine
end

section
/-! SUPPORT. Jumps by given polynomials (R64 to R68): the closed form, the special polynomials, composition, the named
constants as powers of x (R75, R76), and the JUMP command (R70). -/

namespace Sys2Proof.Machine

/-! ## The closed form and the special polynomials (R64, R66) -/

/-- The accumulator after n iterations is the XOR of T^i(s) over the set bits i < n. -/
theorem jumpLoop_acc_eq_foldl (p : GfPoly) (s : StatePair) (n : Nat) :
    (jumpLoop p s n).acc =
      (List.range n).foldl (fun acc i => foldBit (polyBit p i) acc (stepState^[i] s)) .zero := by
  induction n with
  | zero => rfl
  | succ n ih => rw [jumpLoop_acc_succ, ih, List.range_succ, List.foldl_append, List.foldl_cons, List.foldl_nil]

/-- Settles O23: the loop's accumulator after its 128 iterations. -/
theorem jumpIsPolynomialInT : Obligations.JumpIsPolynomialInT := by
  intro s p
  rw [jumpState_eq]
  exact jumpLoop_acc_eq_foldl p s 128

/-- Settles O24: each factor x modulo C(x) is one step. -/
theorem jumpByPowerIsSteps : Obligations.JumpByPowerIsSteps :=
  jumpState_polyXPow

theorem jumpState_two (s : StatePair) : jumpState s 2 = stepState s := by
  rw [show (2 : GfPoly) = polyMulX 1 by decide, jumpState_polyMulX, jumpState_one]

/-- A single bit n is x^n, with no reduction. -/
theorem jumpState_shiftLeft_one {n : Nat} (hn : n < 128) (s : StatePair) :
    jumpState s (1#128 <<< n) = stepState^[n] s := by
  rw [← BitVec.twoPow_eq, ← polyXPowFuel_eq_twoPow Nat.lt_two_pow_self hn, jumpState_polyXPowFuel Nat.lt_two_pow_self]

/-- Settles O26: 0, 1 and x by name, 3 as x + 1, the single bits as powers of x, and C(T) = 0 for the last. -/
theorem specialPolynomials : Obligations.SpecialPolynomials := by
  refine fun s => ⟨jumpState_zero_poly s, jumpState_one s, jumpState_two s, ?_,
    fun n hn => jumpState_shiftLeft_one hn s, jumpState_charPolyLow s⟩
  rw [show (3 : GfPoly) = 1 ^^^ 2 by decide, jumpState_xor, jumpState_one, jumpState_two]

/-! ## The all-zero state (R67) -/

/-- Settles O27: a non-zero polynomial is a power of x, and the constants are not 0. -/
theorem jumpZeroOnlyByZeroPolynomial : Obligations.JumpZeroOnlyByZeroPolynomial := by
  refine ⟨fun s p hs => jumpState_eq_zero_iff hs p, jumpState_zero_state, fun s hs => ?_⟩
  simp only [ne_eq, jumpState_eq_zero_iff hs]
  decide

/-! ## The named constants as powers of x (R75, R76) -/

/-- A polynomial that squaring computes for n jumps n steps; the computation runs on Nat. -/
theorem jumpState_of_toNat_eq_xPowNat {p : GfPoly} {fuel n : Nat} (hn : n < 2 ^ fuel) (hp : p.toNat = xPowNat fuel n)
    (s : StatePair) : jumpState s p = stepState^[n] s := by
  rw [← polyXPowFuel_toNat, BitVec.toNat_inj] at hp
  rw [hp, jumpState_polyXPowFuel hn]

theorem jumpState_j32 (s : StatePair) : jumpState s j32 = stepState^[2 ^ 32] s :=
  jumpState_of_toNat_eq_xPowNat (fuel := 33) (by decide) (by decide +kernel) s

theorem jumpState_j64 (s : StatePair) : jumpState s j64 = stepState^[2 ^ 64] s :=
  jumpState_of_toNat_eq_xPowNat (fuel := 65) (by decide) (by decide +kernel) s

theorem jumpState_j96 (s : StatePair) : jumpState s j96 = stepState^[2 ^ 96] s :=
  jumpState_of_toNat_eq_xPowNat (fuel := 97) (by decide) (by decide +kernel) s

/-- Settles O34: the constants are x^(2^32), x^(2^64) and x^(2^96) modulo C(x), computed by squaring. -/
theorem namedJumpsAreStepCounts : Obligations.NamedJumpsAreStepCounts :=
  fun s => ⟨jumpState_j32 s, jumpState_j64 s, jumpState_j96 s⟩

/-! ## Composition (R68) -/

theorem iterate_stepState_jumpState (n : Nat) (s : StatePair) (p : GfPoly) :
    stepState^[n] (jumpState s p) = jumpState (stepState^[n] s) p := by
  induction n with
  | zero => rfl
  | succ n ih => rw [Function.iterate_succ_apply', ih, Function.iterate_succ_apply', jumpState_stepState]

theorem jumpState_foldBit (x : Bool) (a w : StatePair) (p : GfPoly) :
    jumpState (foldBit x a w) p = foldBit x (jumpState a p) (jumpState w p) := by
  cases x with
  | false => rw [foldBit_false, foldBit_false]
  | true => rw [foldBit_true, foldBit_true, jumpState_xorPair]

/-- One jump is linear and commutes with T, so it commutes with each iteration of the other's loop. -/
theorem jumpState_comm (s : StatePair) (p q : GfPoly) :
    jumpState (jumpState s p) q = jumpState (jumpState s q) p := by
  suffices h : ∀ n, (jumpLoop q (jumpState s p) n).acc = jumpState (jumpLoop q s n).acc p by
    simpa only [← jumpState_eq] using h 128
  intro n
  induction n with
  | zero => exact (jumpState_zero_state p).symm
  | succ n ih => rw [jumpLoop_acc_succ, ih, iterate_stepState_jumpState, ← jumpState_foldBit, ← jumpLoop_acc_succ]

/-- Settles O28: the product's law, commutation with a jump and with T, and 2^64 steps twice. -/
theorem jumpsComposeAndCommute : Obligations.JumpsComposeAndCommute := by
  refine fun s p q => ⟨(jumpState_polyMul s p q).symm, jumpState_comm s p q, jumpState_stepState s p, ?_⟩
  rw [jumpState_j64, jumpState_j64, ← Function.iterate_add_apply, ← Nat.two_pow_succ]

/-! ## JUMP (R70) -/

/-- With every bit set, each of the 128 iterations folds. -/
theorem jumpState_allOnes (s : StatePair) :
    jumpState s (.allOnes 128) = (List.range 128).foldl (fun acc i => xorPair acc (stepState^[i] s)) .zero := by
  rw [jumpIsPolynomialInT]
  refine List.foldl_ext _ _ _ fun acc i hi => ?_
  rw [BitVec.getLsbD_allOnes, decide_eq_true (List.mem_range.mp hi), if_pos rfl]

/-- Settles O29: the accept edge, the run of 128 engine edges, and the corner cases among the special polynomials. -/
theorem jumpCommand : Obligations.JumpCommand := by
  refine ⟨fun _ _ => rfl, fun p0 p1 => answersBy_startJump fun _ => rfl, fun s p0 p1 ha hx => ?_, fun s => ?_,
    jumpState_zero_state, by decide +kernel⟩
  · obtain ⟨t, hrun, hjump⟩ := exists_runsTo_jumping (p := polyOperand p0 p1) ha rfl hx le_rfl
    obtain ⟨u, hrun', hfree, hgen, hdone, -⟩ := exists_runsTo_committed (p := polyOperand p0 p1) ha rfl hx
    exact ⟨⟨t, hrun, hjump.gen, hjump.busy⟩, u, hrun', hgen, hfree, hdone⟩
  · have hzero : 0#64 ++ 0#64 = (0 : GfPoly) := by decide
    have hone : 0#64 ++ 1#64 = (1 : GfPoly) := by decide
    have htwo : 0#64 ++ 2#64 = (2 : GfPoly) := by decide
    have hlast : 0x8000000000000000#64 ++ 0#64 = 1#128 <<< 127 := by decide
    have hones : 0xFFFFFFFFFFFFFFFF#64 ++ 0xFFFFFFFFFFFFFFFF#64 = BitVec.allOnes 128 := by decide
    rw [hzero, hone, htwo, hlast, hones]
    exact ⟨jumpState_zero_poly s, jumpState_one s, jumpState_two s, jumpState_shiftLeft_one (by decide) s,
      jumpState_allOnes s⟩

end Sys2Proof.Machine
end

section
/-! SUPPORT. The named jumps as commands (R77 to R79), and the sub-streams that repeated named jumps start. -/

namespace Sys2Proof.Machine

open Function

/-! ## JUMP32, JUMP64 and JUMP96 (R77 to R79) -/

theorem iterate_stepState_eq_zero_iff (n : Nat) (s : StatePair) : stepState^[n] s = .zero ↔ s = .zero :=
  (stepState_bijective.injective.iterate n).eq_iff' (iterate_stepState_zero n)

section

variable {i : Instr} {p : GfPoly} {n : Nat}

/-- A command that starts the engine with a polynomial of n steps holds the block for 128 cycles and commits the state
n steps on, which is zero exactly if the state at the accept edge was (R67). -/
theorem runsTo_committed_of_steps (he : ∀ u, exec i u = .next (u.startJump p))
    (hsteps : ∀ g, jumpState g p = stepState^[n] g) {s : State} (ha : s.AcceptsNext i) (hx : s.UndisturbedAfter) :
    (∀ m, 1 ≤ m → m ≤ 128 → ∃ t, RunsTo m s t ∧ t.busy = true) ∧
    ∃ t, RunsTo 129 s t ∧ t.gen = jumpState s.gen p ∧ t.gen = stepState^[n] s.gen ∧ t.busy = false ∧
      t.jumpDone = true ∧ t.rndOut = s.rndOut ∧ (t.gen = .zero ↔ s.gen = .zero) := by
  constructor
  · intro m hm1 hm
    obtain ⟨k, rfl⟩ := Nat.exists_eq_add_of_le' hm1
    obtain ⟨t, hrun, hjump⟩ := exists_runsTo_jumping ha (he _) hx (Nat.le_of_succ_le_succ hm)
    exact ⟨t, hrun, hjump.busy⟩
  · obtain ⟨t, hrun, hfree, hgen, hdone, hout, -⟩ := exists_runsTo_committed ha (he _) hx
    have hstep : t.gen = stepState^[n] s.gen := hgen.trans (hsteps s.gen)
    have hzero : t.gen = .zero ↔ s.gen = .zero := by rw [hstep, iterate_stepState_eq_zero_iff]
    exact ⟨t, hrun, hgen, hstep, hfree, hdone, hout, hzero⟩

end

/-- Settles O36: each named jump starts the engine with its constant, which is 2^32, 2^64 or 2^96 steps; the examples
evaluate the jump's loop. -/
theorem namedJumpCommands : Obligations.NamedJumpCommands := by
  refine ⟨fun _ _ => ⟨rfl, rfl, rfl⟩, fun i j e hije => ?_, by decide +kernel, by decide +kernel, by decide +kernel⟩
  have hjump : (∀ u, exec i u = .next (u.startJump j)) ∧ ∀ g, jumpState g j = stepState^[2 ^ e] g := by
    simp only [List.mem_cons, List.not_mem_nil, or_false, Prod.mk.injEq] at hije
    obtain ⟨rfl, rfl, rfl⟩ | ⟨rfl, rfl, rfl⟩ | ⟨rfl, rfl, rfl⟩ := hije
    · exact ⟨fun _ => rfl, jumpState_j32⟩
    · exact ⟨fun _ => rfl, jumpState_j64⟩
    · exact ⟨fun _ => rfl, jumpState_j96⟩
  obtain ⟨he, hsteps⟩ := hjump
  exact ⟨answersBy_startJump he, fun _ => runsTo_committed_of_steps he hsteps⟩

/-! ## Sub-streams (R75, R56) -/

section

variable {p : GfPoly} {n : Nat} (hsteps : ∀ g, jumpState g p = stepState^[n] g)
include hsteps

/-- Output i of sub-stream a, where a jump is n steps, lies i + n * a steps from the start. -/
theorem iterate_stepState_iterate_jumpState (i a : Nat) (s : StatePair) :
    stepState^[i] ((fun g => jumpState g p)^[a] s) = stepState^[i + n * a] s := by
  rw [funext hsteps, ← iterate_mul, ← iterate_add_apply]

/-- The outputs of (2^128 - 1) / n sub-streams of n outputs lie within one period of T, where equal states have equal
positions; and a position i + n * a has remainder i and quotient a by n. -/
theorem substreams_disjoint_of_steps {s : StatePair} (hs : s ≠ .zero) {a b i k : Nat}
    (ha : a < (2 ^ 128 - 1) / n) (hb : b < (2 ^ 128 - 1) / n) (hi : i < n) (hk : k < n)
    (h : stepState^[i] ((fun g => jumpState g p)^[a] s) = stepState^[k] ((fun g => jumpState g p)^[b] s)) :
    a = b ∧ i = k := by
  have hperiod {j c : Nat} (hj : j < n) (hc : c < (2 ^ 128 - 1) / n) : j + n * c < minimalPeriod stepState s := by
    rw [minimalPeriod_stepState hs]
    exact (Nat.add_mul_lt_mul_of_lt_of_lt hj hc).trans_le (Nat.mul_div_le _ n)
  have hpos : i + n * a = k + n * b := by
    rwa [iterate_stepState_iterate_jumpState hsteps, iterate_stepState_iterate_jumpState hsteps,
      iterate_eq_iterate_iff_of_lt_minimalPeriod (hperiod hi ha) (hperiod hk hb)] at h
  have hn : 0 < n := Nat.zero_lt_of_lt hi
  obtain ⟨hquot, hrem⟩ := (Nat.div_mod_unique hn).mpr ⟨hpos, hi⟩
  obtain ⟨hquot', hrem'⟩ := (Nat.div_mod_unique hn).mpr ⟨rfl, hk⟩
  exact ⟨hquot.symm.trans hquot', hrem.symm.trans hrem'⟩

end

/-- Settles O37: the named jumps are 2^32, 2^64 and 2^96 steps. -/
theorem substreamsDisjoint : Obligations.SubstreamsDisjoint := by
  intro j e hje s hs a b i k ha hb hi hk
  have hsteps : ∀ g, jumpState g j = stepState^[2 ^ e] g := by
    simp only [List.mem_cons, List.not_mem_nil, or_false, Prod.mk.injEq] at hje
    obtain ⟨rfl, rfl⟩ | ⟨rfl, rfl⟩ | ⟨rfl, rfl⟩ := hje
    · exact jumpState_j32
    · exact jumpState_j64
    · exact jumpState_j96
  exact substreams_disjoint_of_steps hsteps hs ha hb hi hk

end Sys2Proof.Machine
end

section
/-! SUPPORT. Errors and priority (60_exceptions.md): the reserved opcode (R82), the four kinds of edge (R84), the edges that
an unknown level stops (R83, R99), and the independence of instances (R91). -/

namespace Sys2Proof

/-! ## Ports at an unknown level (R99) -/

/-- The named port carries an unknown level in the sample (R99). -/
def PortSample.Unknown (x : PortSample) : InputPort → Prop
  | .rst => x.rst = none
  | .cmdValid => x.cmdValid = none
  | .cmdOp => x.cmdOp = none
  | .cmdData0 => x.cmdData0 = none
  | .cmdData1 => x.cmdData1 = none

/-- The decoder rejects a sample by the name of a port at an unknown level. -/
theorem unknown_of_decodePorts_error {x : PortSample} {port : InputPort} (h : decodePorts x = .error port) :
    x.Unknown port := by
  unfold decodePorts at h
  split at h
  · next hop => cases h; exact hop
  · next op hop =>
    split at h
    · next h0 => cases h; exact Option.isNone_iff_eq_none.mp (Bool.and_eq_true_iff.mp h0).2
    · split at h
      · next h1 => cases h; exact Option.isNone_iff_eq_none.mp (Bool.and_eq_true_iff.mp h1).2
      · cases h

namespace Machine

/-- An edge goes on, or it is refused by the name of a port at an unknown level; it never ends in a fault (R83, R99). -/
theorem tick_next_or_refused (x : PortSample) (s : State) :
    (∃ t, tick x s = .next t) ∨ ∃ port, tick x s = .refused (.unknownLevel port) ∧ x.Unknown port := by
  unfold tick
  split
  · next hr => exact .inr ⟨.rst, rfl, hr⟩
  · next hv => exact .inr ⟨.cmdValid, rfl, hv⟩
  · exact .inl ⟨_, rfl⟩
  · split
    · exact .inl ⟨_, rfl⟩
    · split
      · split
        · next i _ => exact .inl (exec_total i s)
        · next port hd => exact .inr ⟨port, rfl, unknown_of_decodePorts_error hd⟩
      · exact .inl ⟨_, rfl⟩

theorem isOk_iff_exists_ok {ε α : Type} (e : Except ε α) : e.isOk = true ↔ ∃ a, e = .ok a := by
  cases e <;> simp [Except.isOk, Except.toBool]

/-- The host meets R99 exactly at an edge that is one of the four of R84. -/
theorem hostObeys_iff (s : State) :
    s.hostObeys = true ↔ s.ResetsNext ∨ (NoReset s.sample ∧ s.busy = true) ∨ (∃ i, s.AcceptsNext i) ∨
      (s.sample.rst = some false ∧ s.sample.cmdValid = some false ∧ s.busy = false) := by
  simp only [State.hostObeys, PortSample.controlDriven, State.ResetsNext, State.AcceptsNext, NoReset, Presents]
  cases s.sample.rst with
  | none => simp
  | some rst =>
    cases s.sample.cmdValid with
    | none => simp
    | some valid =>
      cases rst with
      | true => simp
      | false =>
        cases s.busy with
        | true => simp
        | false => cases valid <;> simp [isOk_iff_exists_ok]

theorem hostObeys_iff_step_next (s : State) : s.hostObeys = true ↔ ∃ t, step s = .next t := by
  rw [hostObeys_iff]
  constructor
  · rintro (hr | ⟨hx, hb⟩ | ⟨i, ha⟩ | ⟨hr, hv, hb⟩)
    · exact ⟨_, step_of_resetsNext hr⟩
    · exact ⟨_, step_of_busy hx hb⟩
    · rw [step_of_acceptsNext ha]
      exact exec_total i _
    · exact ⟨_, step_of_idle hr hv hb⟩
  · rintro ⟨t, h⟩
    obtain ⟨hr, -, -⟩ | ⟨hx, hb, -, -, -⟩ | ⟨i, ha, -, -⟩ | ⟨hr, hv, hb, -, -, -⟩ := step_next_kinds h
    · exact .inl hr
    · exact .inr (.inl ⟨hx, hb⟩)
    · exact .inr (.inr (.inl ⟨i, ha⟩))
    · exact .inr (.inr (.inr ⟨hr, hv, hb⟩))

/-- Settles O56: an edge answers a next state exactly where the host obeys, and is refused by an unknown port elsewhere. -/
theorem onlyUnknownLevelsStop : Obligations.OnlyUnknownLevelsStop := by
  refine ⟨hostObeys_iff_step_next, fun s hobeys => ?_, fun s r hfault => ?_⟩
  · obtain hnext | ⟨port, hrefused, hport⟩ := tick_next_or_refused s.sample s.dropSample
    · cases hobeys.symm.trans ((hostObeys_iff_step_next s).mpr hnext)
    · refine ⟨port, hrefused, ?_, ?_, ?_, ?_, ?_⟩ <;> exact fun h => by subst h; exact hport
  · obtain ⟨t, hnext⟩ | ⟨port, hrefused, -⟩ := tick_next_or_refused s.sample s.dropSample
    · cases hfault.symm.trans hnext
    · cases hfault.symm.trans hrefused

/-! ## The reserved opcode and the priority of an edge (R82, R84) -/

/-- Settles O38: op 000 decodes to ILLEGAL whatever its data, and its meaning is two writes. -/
theorem illegalCommand : Obligations.IllegalCommand :=
  ⟨fun _ _ => rfl, answersBy_of_exec fun _ => rfl⟩

/-- Settles O41: the effect of each kind of edge; a command is accepted at none but the third. -/
theorem edgePriority : Obligations.EdgePriority := by
  refine fun s => ⟨fun hr => ⟨step_of_resetsNext hr, fun i hi => hi.not_resetsNext hr⟩,
    fun hx hb => ⟨step_of_busy hx hb, not_acceptsNext_of_busy hb⟩, fun i hr hb hv hd => ?_,
    fun hr hb hv => ⟨step_of_idle hr hv hb, not_acceptsNext_of_not_valid hv⟩⟩
  have ha : s.AcceptsNext i := ⟨⟨hr, hv, hd⟩, hb⟩
  exact ⟨ha, step_of_acceptsNext ha⟩

/-! ## Instances (R91) -/

/-- An edge of block j writes that block's next state in its place, and nothing where the list has no such block
(notes/assumptions/12.md). -/
theorem stepInstance_next_iff {j : Nat} {bs cs : List State} :
    stepInstance j bs = .next cs ↔
      (bs[j]? = none ∧ cs = bs) ∨ ∃ s t, bs[j]? = some s ∧ step s = .next t ∧ cs = bs.set j t := by
  unfold stepInstance
  cases bs[j]? with
  | none => simp [eq_comm]
  | some s => cases hs : step s <;> simp [hs, eq_comm]

theorem stepInstance_length {j : Nat} {bs cs : List State} (h : stepInstance j bs = .next cs) :
    cs.length = bs.length := by
  obtain ⟨-, rfl⟩ | ⟨s, t, -, -, rfl⟩ := stepInstance_next_iff.mp h
  · rfl
  · exact List.length_set

/-- An edge of one block leaves every other as it was. -/
theorem stepInstance_getElem?_ne {j m : Nat} {bs cs : List State} (h : stepInstance j bs = .next cs) (hm : m ≠ j) :
    cs[m]? = bs[m]? := by
  obtain ⟨-, rfl⟩ | ⟨s, t, -, -, rfl⟩ := stepInstance_next_iff.mp h
  · rfl
  · exact List.getElem?_set_ne hm.symm

/-- An edge of one block is a step of that block alone. -/
theorem stepInstance_getElem?_self {j : Nat} {bs cs : List State} {s : State} (h : stepInstance j bs = .next cs)
    (hs : bs[j]? = some s) : ∃ t, step s = .next t ∧ cs[j]? = some t := by
  obtain ⟨hnone, -⟩ | ⟨s', t, hs', ht, rfl⟩ := stepInstance_next_iff.mp h
  · cases hnone.symm.trans hs
  · cases hs'.symm.trans hs
    exact ⟨t, ht, List.getElem?_set_self (List.getElem?_eq_some_iff.mp hs).1⟩

/-- Edges of two blocks can be taken in either order: each finds its own block as it was. -/
theorem stepInstance_comm {j m : Nat} {bs cs ds : List State} (hjm : j ≠ m) (hj : stepInstance j bs = .next cs)
    (hm : stepInstance m cs = .next ds) : ∃ es, stepInstance m bs = .next es ∧ stepInstance j es = .next ds := by
  have hframe : cs[m]? = bs[m]? := stepInstance_getElem?_ne hj hjm.symm
  obtain ⟨hnone, rfl⟩ | ⟨s, t, hs, ht, rfl⟩ := stepInstance_next_iff.mp hj
  · refine ⟨ds, hm, stepInstance_next_iff.mpr (.inl ⟨?_, rfl⟩)⟩
    rw [stepInstance_getElem?_ne hm hjm, hnone]
  · obtain ⟨hnone, rfl⟩ | ⟨s', t', hs', ht', rfl⟩ := stepInstance_next_iff.mp hm
    · exact ⟨bs, stepInstance_next_iff.mpr (.inl ⟨hframe ▸ hnone, rfl⟩), hj⟩
    · refine ⟨bs.set m t', stepInstance_next_iff.mpr (.inr ⟨s', t', hframe ▸ hs', ht', rfl⟩),
        stepInstance_next_iff.mpr (.inr ⟨s, t, ?_, ht, List.set_comm t t' hjm⟩)⟩
      rw [List.getElem?_set_ne hjm.symm, hs]

/-- Settles O58: an edge's frame, its own step, and the commuting of two edges. -/
theorem instancesShareNothing : Obligations.InstancesShareNothing :=
  ⟨fun _ _ _ h => ⟨stepInstance_length h, fun _ => stepInstance_getElem?_ne h, fun _ => stepInstance_getElem?_self h⟩,
    fun _ _ _ _ _ => stepInstance_comm⟩

end Machine

end Sys2Proof
end

section
/-! SUPPORT. Reset and hazards (70_reset_and_hazards.md): the edges that reach the all-zero state (R15), reset at any edge
and during a jump (R93, R95), the flags no edge reads (R22), and the time that a run takes (R98, R104). -/

namespace Sys2Proof.Machine

/-! ## The edges that reach the all-zero state (R15) -/

/-- From a non-zero state, LOAD (0, 0) alone of the commands writes the all-zero state: Init never gives it (R52), T is
injective (R60), and a jump's accept edge writes no state. -/
theorem exec_gen_eq_zero_iff {i : Instr} {s t : State} (hs : s.gen ≠ .zero) (h : exec i s = .next t) :
    t.gen = .zero ↔ i = .load 0 0 := by
  have hgen := exec_gen h
  cases i with
  | init seed => exact iff_of_false (hgen ▸ initState_ne_zero seed) nofun
  | next =>
    have hstep : stepState s.gen ≠ .zero := mt (stepState_eq_zero_iff s.gen).mp hs
    exact iff_of_false (hgen ▸ hstep) nofun
  | load d0 d1 =>
    have hload : t.gen = ⟨d0, d1⟩ := hgen
    rw [hload, StatePair.mk.injEq, Instr.load.injEq]
  | illegal | jump _ _ | jump32 | jump64 | jump96 => exact iff_of_false (hgen ▸ hs) nofun

/-- From a non-zero state, an engine step leaves the all-zero state exactly if it commits a jump with P = 0 (R67). -/
theorem engineStep_gen_eq_zero_iff {s : State} (hl : s.EngineOnLoop) (hb : s.busy = true) (hs : s.gen ≠ .zero) :
    s.engineStep.gen = .zero ↔ s.k = 127#7 ∧ s.p = 0 := by
  by_cases hk : s.k = 127#7
  · rw [engineStep_gen_of_commit hl hb hk, jumpState_eq_zero_iff hs, and_iff_right hk]
  · rw [engineStep_gen_of_continue hk]
    exact iff_of_false hs fun hc => hk hc.1

/-- Settles O45: of the four kinds of edge, reset gives Init's state and an idle edge keeps the state, neither of them
zero; an engine step and a command reach zero only as their lemmas say. -/
theorem onlyLoadAndZeroJumpReachZero : Obligations.OnlyLoadAndZeroJumpReachZero := by
  intro s t hinv hs h
  obtain ⟨hr, hno, rfl⟩ | ⟨hx, hb, -, hno, rfl⟩ | ⟨i, ha, -, he⟩ | ⟨-, -, hb, -, hno, rfl⟩ := step_next_kinds h
  · have hcommit : ¬ s.CommitsNext := fun hc => hr.not_noReset hc.1
    exact iff_of_false (initState_ne_zero s.resetSeed) (by simp [hno, hcommit])
  · rw [engineStep_gen_eq_zero_iff (s := s.dropSample) hinv.engine hb hs]
    simp [State.CommitsNext, hno, hx, hb]
  · rw [exec_gen_eq_zero_iff (s := s.dropSample) hs he, ha.eq_iff]
    exact (or_iff_left fun hc => not_commitsNext_of_not_busy ha.2 hc.1).symm
  · exact iff_of_false hs (by simp [hno, not_commitsNext_of_not_busy hb])

/-! ## Reset (R93) -/

/-- Settles O10: the reset edge is `resetFor` of the build parameter, which it keeps, and leaves busy = 0. -/
theorem resetEdge : Obligations.ResetEdge := by
  refine ⟨fun s => step_of_resetsNext, fun s => rfl, fun s t u hs hst ht htu => ?_, fun s t hs hst => ?_⟩
  · obtain rfl := eq_resetEdge_of_resetsNext hs hst
    exact eq_resetEdge_of_resetsNext ht htu
  · obtain rfl := eq_resetEdge_of_resetsNext hs hst
    exact ⟨rfl, fun i => and_iff_left rfl⟩

/-! ## A running jump at a later edge (R71, R95) -/

/-- No run changes the build parameter. -/
theorem RunsTo.resetSeed_eq {n : Nat} {s t : State} (h : RunsTo n s t) : t.resetSeed = s.resetSeed := by
  induction n generalizing s with
  | zero => rw [(runsTo_zero_iff s t).mp h]
  | succ n ih =>
    obtain ⟨u, hu, hut⟩ := (runsTo_succ_iff n s t).mp h
    exact (ih hut).trans (edgeTakesOneSample s u hu).1

/-- While no reset comes, a running engine counts its bits up to the last and leaves the generator state, from whatever
its registers hold. -/
theorem exists_runsTo_busy {s : State} {n : Nat} (hb : s.busy = true) (hn : s.k.toNat + n < 128)
    (hx : ∀ m < n, NoReset (s.pins.getD m .idle)) :
    ∃ t, RunsTo n s t ∧ t.busy = true ∧ t.k.toNat = s.k.toNat + n ∧ t.gen = s.gen := by
  induction n with
  | zero => exact ⟨s, (runsTo_zero_iff s s).mpr rfl, hb, rfl, rfl⟩
  | succ n ih =>
    obtain ⟨t, hrun, htb, htk, hgen⟩ := ih (by omega) fun m hm => hx m (hm.trans n.lt_succ_self)
    have hk : t.k ≠ 127#7 := fun hlast => by
      have : t.k.toNat = 127 := congrArg BitVec.toNat hlast
      omega
    have hsample : NoReset t.sample := by
      rw [hrun.sample_eq_getD]
      exact hx n n.lt_succ_self
    refine ⟨_, hrun.trans ((runsTo_one_iff _ _).mpr (step_of_busy hsample htb)),
      (engineStep_busy_iff (s := t.dropSample) htb).mpr hk, ?_,
      (engineStep_gen_of_continue (s := t.dropSample) hk).trans hgen⟩
    rw [engineStep_continue (s := t.dropSample) hk, ← Nat.add_assoc, ← htk]
    exact k_succ_toNat hk

/-- Settles O11: until the commit the engine leaves (s0, s1), so the reset finds the pre-jump state there; its edge is
the reset state, and LOAD writes its operands. -/
theorem resetAbortsJump : Obligations.ResetAbortsJump := by
  intro s u i m ha hj hm hx hrun hreset
  obtain ⟨t, hst, htu⟩ := (runsTo_succ_iff m s u).mp hrun
  have he := exec_of_acceptsNext ha hst
  have hbusy : t.busy = true := by rw [exec_busy he, hj, Bool.true_or]
  have hstart : t.gen = s.gen := by rw [exec_gen he, if_pos hj, State.dropSample_gen]
  have hk : t.k.toNat + m < 128 := by rw [exec_k_of_startsJump hj he]; simpa using hm
  obtain ⟨u', hrun', hub, -, hkeep⟩ := exists_runsTo_busy hbusy hk fun n hn => by
    rw [step_pins_getD hst]
    exact hx (n + 1) n.succ_pos hn
  obtain rfl := hrun'.unique htu
  have hgen : u'.gen = s.gen := hkeep.trans hstart
  exact ⟨hgen, hub, _, step_of_resetsNext hreset, congrArg initState hrun.resetSeed_eq, rfl, rfl, _, rfl, hgen⟩

/-! ## The flags (R22) -/

/-- Settles O40: of the four kinds of edge, none reads a flag; a command or an engine step carries err_illegal along or
sets it, and a reset clears it. -/
theorem flagsNeverRead : Obligations.FlagsNeverRead :=
  fun _ _ v j e => step_withFlags v j e

/-! ## The time that a run takes (R98, R104) -/

/-- A command holds the port for its accept edge at least. -/
theorem portCycles_pos (i : Instr) : 0 < portCycles i := by
  unfold portCycles
  split <;> decide

theorem presents_presentInstr (i : Instr) : Presents (presentInstr i) i :=
  ⟨rfl, rfl, (decodePorts_present _).trans (congrArg Except.ok (decodeFields_encodeFields i))⟩

/-- A waiting host holds rst = 0. -/
theorem noReset_waitingSample (prog : List Instr) : NoReset (waitingSample prog) := by
  cases prog with
  | nil => exact ⟨rfl, rfl⟩
  | cons i prog => exact (presents_presentInstr i).noReset

/-- What a host drives that presents the next command as soon as the port is free: the command, then one sample over and
over until the port is free again. -/
def presentThenHold (i : Instr) (y : PortSample) (xs : List PortSample) : List PortSample :=
  presentInstr i :: (List.replicate (portCycles i - 1) y ++ xs)

theorem backToBack_cons (i : Instr) (prog : List Instr) :
    backToBack (i :: prog) = presentThenHold i .idle (backToBack prog) := rfl

theorem holdUntilAccepted_cons (i : Instr) (prog : List Instr) :
    holdUntilAccepted (i :: prog) = presentThenHold i (waitingSample prog) (holdUntilAccepted prog) := rfl

theorem length_presentThenHold (i : Instr) (y : PortSample) (xs : List PortSample) :
    (presentThenHold i y xs).length = portCycles i + xs.length := by
  have := portCycles_pos i
  simp only [presentThenHold, List.length_cons, List.length_append, List.length_replicate]
  omega

/-- Held samples without a reset fill a jump's engine edges, and no other command has any. -/
theorem Drives.cons_presentThenHold {prog : List Instr} {xs : List PortSample} (h : Drives prog xs) (i : Instr)
    {y : PortSample} (hy : NoReset y) : Drives (i :: prog) (presentThenHold i y xs) := by
  unfold presentThenHold portCycles
  cases hj : startsJump i with
  | false => exact .oneEdge (presents_presentInstr i) hj h
  | true =>
    exact .jumping (presents_presentInstr i) hj List.length_replicate
      (fun z hz => List.eq_of_mem_replicate hz ▸ hy) h

/-- Each host of R98 and R104 presents its sequence in as many samples as the commands hold the port. -/
theorem drives_of_host {prog : List Instr} {xs : List PortSample}
    (h : xs = backToBack prog ∨ xs = holdUntilAccepted prog) :
    Drives prog xs ∧ xs.length = (prog.map portCycles).sum := by
  induction prog generalizing xs with
  | nil => obtain rfl | rfl := h <;> exact ⟨.done, rfl⟩
  | cons i prog ih =>
    rw [backToBack_cons, holdUntilAccepted_cons] at h
    rw [List.map_cons, List.sum_cons]
    obtain rfl | rfl := h
    · obtain ⟨hd, hlen⟩ := ih (.inl rfl)
      exact ⟨hd.cons_presentThenHold i ⟨rfl, rfl⟩, by rw [length_presentThenHold, hlen]⟩
    · obtain ⟨hd, hlen⟩ := ih (.inr rfl)
      exact ⟨hd.cons_presentThenHold i (noReset_waitingSample prog), by rw [length_presentThenHold, hlen]⟩

/-- Without a reset the port is free after at most 128 edges: a running jump commits at bit 127. -/
theorem exists_runsTo_not_busy {s : State} (hx : ∀ m < 128, NoReset (s.pins.getD m .idle)) :
    ∃ n t, n ≤ 128 ∧ RunsTo n s t ∧ t.busy = false := by
  cases hb : s.busy with
  | false => exact ⟨0, s, Nat.zero_le _, (runsTo_zero_iff s s).mpr rfl, hb⟩
  | true =>
    have hk := s.k.isLt
    obtain ⟨t, hrun, htb, htk, -⟩ := exists_runsTo_busy (n := 127 - s.k.toNat) hb (by omega) fun m hm => hx m (by omega)
    have hlast : t.k.toNat = 127 := by omega
    have hsample : NoReset t.sample := by
      rw [hrun.sample_eq_getD]
      exact hx _ (by omega)
    have hstep := step_of_busy hsample htb
    exact ⟨_, _, by omega, hrun.trans ((runsTo_one_iff _ _).mpr hstep),
      step_busy_of_commitsNext ⟨hsample, htb, BitVec.eq_of_toNat_eq hlast⟩ hstep⟩

/-- Settles O54: both hosts drive their sequence, so their runs end with their samples; the wait is the longest jump. -/
theorem backToBackTiming : Obligations.BackToBackTiming := by
  refine ⟨fun prog xs rest s hhost hb hp => ?_, fun s => exists_runsTo_not_busy, fun i => by cases i <;> rfl, rfl⟩
  obtain ⟨hd, hlen⟩ := drives_of_host hhost
  rw [← hlen]
  exact cyclesImplementTransactions.1 prog xs rest s hd hb hp

end Sys2Proof.Machine
end

section
/-! SUPPORT. The all-zero state (R12, R55) stays all-zero under NEXT and every jump; and the assembler's power by
squaring is the power one factor at a time. -/

namespace Sys2Proof.Machine

/-! ## The all-zero state (R55) -/

/-- From the all-zero state, NEXT and the commit of a jump write all-zero again, and INIT, LOAD and reset are the only
other writers of the state. -/
theorem step_gen_eq_zero {s t : State} (hinv : s.Inv) (hs : s.gen = .zero) (h : step s = .next t)
    (hreset : ¬ s.ResetsNext) (hkeep : ∀ i, s.AcceptsNext i → (∀ seed, i ≠ .init seed) ∧ ∀ d0 d1, i ≠ .load d0 d1) :
    t.gen = .zero := by
  obtain ⟨-, hcommit, -, -, hnext, hwriter⟩ := stateWriters s t hinv h
  by_cases hsame : t.gen = s.gen
  · exact hsame.trans hs
  obtain hr | hc | ha | ⟨seed, ha⟩ | ⟨d0, d1, ha⟩ := hwriter hsame
  · exact absurd hr hreset
  · rw [hcommit hc, hs, jumpState_zero_state]
  · rw [hnext ha, hs, stepState_zero]
  · exact absurd rfl ((hkeep _ ha).1 seed)
  · exact absurd rfl ((hkeep _ ha).2 d0 d1)

/-- Settles O16: LOAD (0, 0) writes its operands like any other; T and every jump keep the zero pair, and
`step_gen_eq_zero` says so edge by edge. -/
theorem zeroStateStays : Obligations.ZeroStateStays := by
  refine ⟨fun s => ⟨_, rfl, rfl, rfl, rfl⟩, fun s hs => ?_, jumpState_zero_state,
    fun s t hinv hs h hreset hkeep => ?_⟩
  · obtain ⟨t, h⟩ := exec_total .next s
    have hout : t.rndOut = stepResult s.gen := exec_rndOut h
    have hgen : t.gen = stepState s.gen := exec_gen h
    refine ⟨t, h, ?_, by rw [hgen, hs, stepState_zero]⟩
    rw [hout, hs]
    decide
  · have hzero := step_gen_eq_zero hinv hs h hreset hkeep
    exact ⟨hzero, (State.zeroState_iff t).mpr hzero⟩

/-! ## Powers of x (R49, R65) -/

/-- Settles O60: both powers jump n steps, and polynomials that jump alike from a non-zero state are equal. -/
theorem powerBySquaring : Obligations.PowerBySquaring := by
  intro n
  apply jumpState_injective one_zero_ne_zero
  rw [jumpState_polyXPowFast, jumpState_polyXPow]

end Sys2Proof.Machine
end
